-- ==== Sys2Proof/Word.lean ====
section
/-! DEFINITION. The machine's word types (R3) and the sparse stores that hold memories and register files as
plain data: strictly rising keys, and no entry equal to the value an unlisted key reads as. -/
namespace Sys2Proof

/-- A byte of memory. -/
abbrev Byte := BitVec 8
/-- A 32-bit register, a vector element or a memory-mapped register. -/
abbrev Word := BitVec 32
/-- A 64-bit value. -/
abbrev DWord := BitVec 64
/-- A sparse store of `n`-bit cells: rising keys, no default value listed. -/
abbrev Cells (n : Nat) := List (Nat × BitVec n)
/-- A memory of bytes. It is a list of `Host.Cell`. -/
abbrev Mem := Cells 8
/-- A register file, a tile store or a table of words. -/
abbrev Regs := Cells 32
/-- The value of one vector register: one word a lane, lane 0 first. -/
abbrev Lanes := List Word

end Sys2Proof
end

