-- ==== Sys2Proof/Syntax.lean ====
section
/-! DEFINITION. The instruction set: one constructor per row of spec/opcode_table.json. The first part are the
scalar instructions (R119 to R122), the second the lane instructions (R124 to R136), the third the machine's
indivisible events (spec/95_what_each_step_holds.md), whose arguments name what they act on. -/
namespace Sys2Proof

/-- A scalar register field of seven bits (R120). -/
abbrev Reg := BitVec 7
/-- A group predicate field. -/
abbrev QReg := BitVec 3
/-- A completion-flag field: 0 to 11 a flag, 15 none, 12 to 14 reserved (R120). -/
abbrev FlagField := BitVec 4

/-- The assigned type codes (R91, R93, R127). -/
inductive Ty where
  | b32 | i32 | n32 | i16x2 | n16x2 | i8x4 | n8x4
  | f32 | f16x2 | bf16x2 | e4m3x4 | e5m2x4 | e2m1x8 | i64 | n64
  deriving DecidableEq, Repr, Inhabited

/-- The form field of a lane instruction (R124, R125). -/
inductive Form where
  /-- register, register, register -/
  | reg
  /-- register, register, immediate -/
  | imm
  /-- register, uniform, register -/
  | uni
  /-- memory -/
  | mem
  deriving DecidableEq, Repr, Inhabited

/-- The fields of a lane instruction but its opcode (R124). -/
structure LaneOp where
  dist : BitVec 3
  pred : BitVec 3
  neg  : Bool
  slot : Bool
  vd   : BitVec 8
  va   : BitVec 8
  vb   : BitVec 8
  vc   : BitVec 8
  use  : BitVec 3
  hold : BitVec 3
  ty   : Ty
  form : Form
  rnd  : BitVec 2
  imm  : Word
  deriving DecidableEq, Repr, Inhabited

/-- A clause header (R128). `count` is the number of instructions minus one. -/
structure Header where
  wait  : BitVec 12
  setAv : Bool
  setA  : BitVec 4
  setBv : Bool
  setB  : BitVec 4
  count : BitVec 3
  yield : Bool
  deriving DecidableEq, Repr, Inhabited

/-- The physical memories of the module, and the protected stores of a core that hold what belongs to groups: uniform
registers, accumulator tiles and operand streams (R410). -/
inductive Space where
  | scene | core | bank | sample | uniform | tile | stream
  deriving DecidableEq, Repr, Inhabited

/-- What a scrub or a read finds in a protected word (R410, R413). -/
inductive EccFinding where
  | clean | corrected | uncorrectable
  deriving DecidableEq, Repr, Inhabited

/-- Who writes a memory-mapped register (R349, R377, R416). -/
inductive Source where
  | app | packetCore | secureFirmware | management | jtag
  deriving DecidableEq, Repr, Inhabited

/-- Where an access from outside the stacks goes: physical scene memory, the register window of a stack (R6, R87), or a register of
an application core's IMSIC (R379, R409). -/
inductive OuterPlace where
  | scene
  | window (die : Nat)
  | imsic
  deriving DecidableEq, Repr, Inhabited

/-- A load or store of an application core or a PCIe device (R6, R87, R409); `bytes` is empty for a load of `n` bytes. -/
structure OuterAccess where
  place : OuterPlace
  addr  : Nat
  n     : Nat
  bytes : List Byte
  deriving DecidableEq, Repr, Inhabited

/-- What the boot ROM finds of one firmware image: the SHA-384 of the public key that it carries, its version, and whether its
signature verifies under that key (R414). -/
structure BootImage where
  keyHash : List Byte
  version : Nat
  signed  : Bool
  deriving DecidableEq, Repr, Inhabited

/-- The steps of R327 that the hardware performs in a session migration. -/
inductive MigrationStep where
  /-- pre-empt the resident blocks with reason 1 -/
  | preempt
  /-- write the pending-pool records and the migration record to the save pool -/
  | save
  /-- read or discard every band already handed over -/
  | bands
  /-- read them back on the same stack and place the blocks as restores -/
  | restore
  /-- read them back on the other stack: what ran on stack A goes on on stack B, and the other way round -/
  | restoreOther
  deriving DecidableEq, Repr, Inhabited

/-- One instruction, or one indivisible event of the machine. -/
inductive Instr where
  -- integer and logic (R149, R150)
  | add (d a b : Reg) (p : Bool)
  | sub (d a b : Reg) (p : Bool)
  | mul (d a b : Reg) (p : Bool)
  | mulh (d a b : Reg)
  | mulhn (d a b : Reg)
  | divi (d a b : Reg)
  | divn (d a b : Reg)
  | remi (d a b : Reg)
  | remn (d a b : Reg)
  | and (d a b : Reg) (p : Bool)
  | or (d a b : Reg) (p : Bool)
  | xor (d a b : Reg) (p : Bool)
  | andn (d a b : Reg) (p : Bool)
  | shl (d a b : Reg) (p : Bool)
  | shr (d a b : Reg) (p : Bool)
  | sar (d a b : Reg) (p : Bool)
  | rotl (d a b : Reg) (p : Bool)
  | min (d a b : Reg) (p : Bool)
  | minn (d a b : Reg) (p : Bool)
  | max (d a b : Reg) (p : Bool)
  | maxn (d a b : Reg) (p : Bool)
  | clz (d a : Reg) (p : Bool)
  | ctz (d a : Reg) (p : Bool)
  | popc (d a : Reg) (p : Bool)
  | sext (d a : Reg) (p : Bool) (n : BitVec 2)
  | zext (d a : Reg) (p : Bool) (n : BitVec 2)
  -- compares, predicates, select (R151 to R153)
  | cmp (q : QReg) (a b : Reg) (k : BitVec 4)
  | qand (d a b : QReg)
  | qor (d a b : QReg)
  | qxor (d a b : QReg)
  | qandn (d a b : QReg)
  | qnot (d a : QReg)
  | qget (d : Reg)
  | qset (a : Reg)
  | sel (d a b : Reg) (p : Bool) (q : QReg)
  -- moves, immediates, special reads (R154)
  | mov (d a : Reg) (p : Bool)
  | srd (d : Reg) (i : BitVec 11)
  | addi (d a : Reg) (i : BitVec 11)
  | andi (d a : Reg) (i : BitVec 11)
  | ori (d a : Reg) (i : BitVec 11)
  | xori (d a : Reg) (i : BitVec 11)
  | shli (d a : Reg) (i : BitVec 5)
  | shri (d a : Reg) (i : BitVec 5)
  | sari (d a : Reg) (i : BitVec 5)
  | cmpi (k : BitVec 4) (q : QReg) (a : Reg) (i : BitVec 11)
  | movi (d : Reg) (i : BitVec 16)
  | movhi (d : Reg) (i : BitVec 16)
  | gmov (d s : BitVec 9)
  -- loads, stores, atomics (R155, R157)
  | ldB (d a : Reg) (f : FlagField) (o : BitVec 7)
  | ldBn (d a : Reg) (f : FlagField) (o : BitVec 7)
  | ldH (d a : Reg) (f : FlagField) (o : BitVec 7)
  | ldHn (d a : Reg) (f : FlagField) (o : BitVec 7)
  | ldW (d a : Reg) (f : FlagField) (o : BitVec 7)
  | ldD (d a : Reg) (f : FlagField) (o : BitVec 7)
  | stB (d a : Reg) (f : FlagField) (o : BitVec 7)
  | stH (d a : Reg) (f : FlagField) (o : BitVec 7)
  | stW (d a : Reg) (f : FlagField) (o : BitVec 7)
  | stD (d a : Reg) (f : FlagField) (o : BitVec 7)
  | atom (d a : Reg) (f : FlagField) (z : Bool) (o : BitVec 4)
  -- control flow (R158 to R160)
  | jmp (o : BitVec 21)
  | bq (q : QReg) (n : Bool) (o : BitVec 21)
  | call (o : BitVec 21)
  | jr (a : Reg)
  | loop (d : Reg) (i : BitVec 11)
  -- lane dispatch and waits (R161 to R163)
  | lrun (i : BitVec 16)
  | lrunx (a b : Reg)
  | fwait (m : BitVec 12)
  | waitp (a : Reg) (p : BitVec 4)
  | waitz (a : Reg)
  -- barriers, fences, token, switch points (R164 to R168)
  | bar (d : Reg) (n : BitVec 4)
  | bara (d : Reg) (n : BitVec 4)
  | barw (n : BitVec 4)
  | swpt (n : BitVec 16)
  -- copies, child grids, semaphores (R169 to R174)
  | ckick (a b : Reg)
  | ccancel (a : Reg)
  | launch (a : Reg)
  | join (a : Reg)
  | xsig (s : BitVec 6)
  | xwait (s : BitVec 6)
  -- matrix (R238, R243, R249, R251, R256)
  | mma (s f : Reg) (g : FlagField)
  | mqt (a : Reg) (f : FlagField)
  | mzero (a : Reg) (f : FlagField)
  | mtld (a b : Reg) (f : FlagField)
  | mtst (a b : Reg) (f : FlagField)
  | mfifoClaim (a b : Reg) (s : BitVec 2)
  | mfifoRelease (s : BitVec 2)
  | mfifoHead (a : Reg) (s : BitVec 2)
  | mfifoSethead (a : Reg) (s : BitVec 2)
  -- draw unit and bands (R265, R266, R274, R292)
  | dkey (a b : Reg)
  | ddraw (a d n : Reg) (f : FlagField)
  | dpos (a d : Reg) (f : FlagField)
  | xband (a : Reg) (f : FlagField)
  | waitm (a b : Reg)
  -- system (R313 to R317)
  | trap (i : BitVec 16)
  | eretTerm (a : Reg)
  | prd (d s : BitVec 9) (k : BitVec 7)
  | pwr (i v : BitVec 9) (k : BitVec 7)
  | brk (i : BitVec 16)
  | tlbinv (a b : Reg)
  -- lane stream framing (R18, R128, R129)
  | clauseStart (h : Header)
  | laneBlockStart (g : Nat)
  -- lane integer and logic (R180 to R182)
  | vadd (l : LaneOp)
  | vsub (l : LaneOp)
  | vmul (l : LaneOp)
  | vmulh (l : LaneOp)
  | vmad (l : LaneOp)
  | vabs (l : LaneOp)
  | vneg (l : LaneOp)
  | vmin (l : LaneOp)
  | vmax (l : LaneOp)
  | vand (l : LaneOp)
  | vor (l : LaneOp)
  | vxor (l : LaneOp)
  | vnot (l : LaneOp)
  | vandn (l : LaneOp)
  | vshl (l : LaneOp)
  | vshr (l : LaneOp)
  | vsar (l : LaneOp)
  | vrotl (l : LaneOp)
  | vclz (l : LaneOp)
  | vpopc (l : LaneOp)
  | vbrev (l : LaneOp)
  | vbfe (l : LaneOp)
  | vbfi (l : LaneOp)
  | vaddc (l : LaneOp)
  | vsubb (l : LaneOp)
  | vsad (l : LaneOp)
  | vdp4 (l : LaneOp)
  -- lane compares and predicates (R183 to R185)
  | vcmp (l : LaneOp)
  | vpop (l : LaneOp)
  | vsel (l : LaneOp)
  -- lane floating (R186 to R191)
  | vfadd (l : LaneOp)
  | vfsub (l : LaneOp)
  | vfmul (l : LaneOp)
  | vfma (l : LaneOp)
  | vfmin (l : LaneOp)
  | vfmax (l : LaneOp)
  | vfrnd (l : LaneOp)
  | vfrac (l : LaneOp)
  | vdot2 (l : LaneOp)
  | vfscl (l : LaneOp)
  | vfcmp (l : LaneOp)
  | vclass (l : LaneOp)
  | vrcp (l : LaneOp)
  | vrsq (l : LaneOp)
  | vsqrt (l : LaneOp)
  | vexp2 (l : LaneOp)
  | vlog2 (l : LaneOp)
  | vsin (l : LaneOp)
  | vcos (l : LaneOp)
  | vtanh (l : LaneOp)
  -- conversion, packing, quantisation (R192 to R197)
  | vcvt (l : LaneOp)
  | vpack (l : LaneOp)
  | vunpk (l : LaneOp)
  | vquant (l : LaneOp)
  | vquantScale (l : LaneOp)
  -- moves and special reads (R198, R199)
  | vmov (l : LaneOp)
  | vmovi (l : LaneOp)
  | vsrd (l : LaneOp)
  -- collectives (R200 to R205)
  | vshfl (l : LaneOp)
  | vred (l : LaneOp)
  | vscan (l : LaneOp)
  | vballot (l : LaneOp)
  | vfirst (l : LaneOp)
  | collectiveWrite (g op : Nat)
  -- lane memory (R206 to R213)
  | vld (l : LaneOp)
  | vst (l : LaneOp)
  | vatom (l : LaneOp)
  | vmred (l : LaneOp)
  | vprf (l : LaneOp)
  -- lane control (R227 to R230)
  | vbr (l : LaneOp)
  | vbrx (l : LaneOp)
  | vend (l : LaneOp)
  | vexit (l : LaneOp)
  | vnop (l : LaneOp)
  -- streams, tiles, engine commands (R253, R254, R278)
  | vfeed (l : LaneOp)
  | vaccr (l : LaneOp)
  | vaccw (l : LaneOp)
  | vsamp (l : LaneOp)
  | vtrace (l : LaneOp)
  | vprobe (l : LaneOp)
  | vtex (l : LaneOp)
  | vsgat (l : LaneOp)
  | vrowpk (l : LaneOp)
  -- completion of asynchronous operations: group identity and operation number
  | accessReturn (g op : Nat)
  | sliceAccessArrival (g op : Nat)
  | peerAccessArrival (g op : Nat)
  | pageWalk (die : Nat)
  | copyRequestStart (die core : Nat)
  | copyChunkLanding (c : Nat)
  | copyRequestEnd (c : Nat)
  | mmaComplete (g op : Nat)
  | matrixTransferComplete (g op : Nat)
  | vfeedComplete (g op : Nat)
  | mqtComplete (g op : Nat)
  | engineCommandComplete (g op : Nat)
  | vsgatDelivery (g op : Nat)
  | vsampForward (die : Nat)
  | ddrawComplete (g op : Nat)
  | dposRoundComplete (g op : Nat)
  | codeFetchFill (die : Nat)
  -- traps, pre-emption, placement (R309 to R376)
  | trapEntry (g : Nat)
  | breakpointMatch (g : Nat) (slot : Nat)
  | saveTimeout (b : Nat)
  | restoreTimeout (b : Nat)
  | unitPlacement (die : Nat)
  | switchRequestExpiry (b : Nat)
  | blockPark (b : Nat)
  | blockRetirement (b : Nat)
  | gridCompletion (k : Nat)
  | coalesceTimerExpiry (die q : Nat)
  | packetCoreStep (die : Nat)
  | dispatchPacket (die q : Nat)
  | signalPacket (die q : Nat)
  | waitPacket (die q : Nat)
  | nopPacket (die q : Nat)
  -- profiling, watchdog, egress, time, links, power
  | profileSample (die : Nat)
  | barrierWatchdogExpiry (b n : Nat)
  | egressBandRead (k : Nat)
  | sliceTransmit (k : Nat)
  | bandDeadlineExpiry (k : Nat)
  | powerStateEntry (die : Nat)
  | unassignedOpcodeIssue (lane : Bool) (w : Nat)
  | slackBelowMargin (die k : Nat)
  | stallCounterClk (g : Nat)
  | viaductRetrainEnd (die : Nat)
  | stackReachesD0 (die : Nat)
  -- the debug mailbox (R380 to R388)
  | halt (die : Nat)
  | go (die : Nat)
  | step (die : Nat)
  | read (die : Nat)
  | write (die : Nat)
  | pop (die : Nat)
  | memrd (die : Nat)
  | memwr (die : Nat)
  | query (die : Nat)
  | rreg (die : Nat)
  | wreg (die : Nat)
  | find (die : Nat)
  -- the dispatcher and the links
  | thermalBlockMove (b core : Nat)
  | preemption (b reason : Nat)
  | remoteTimeoutExpiry (g op : Nat) (performed : Bool)
  -- what has no fields: scalar instructions (R158 to R167, R315, R317), then events of the hub (R415, R416, R418)
  | ret
  | exit
  | yield
  | nop
  | lsync
  | fenceAcq
  | fenceRel
  | fenceAr
  | opfence
  | cpass
  | mwait
  | eret
  | eretSave
  | tlbsync
  | attestationReport
  | debugAuthorisation
  | governorCheck
  -- what comes from outside, or at times that the spec leaves open
  | powerWake (die : Nat)
  | pkQwidxWrite (die q : Nat) (w : Word)
  | pkQcfgWrite (die q : Nat) (w : Word)
  | pkQctlStop (die q : Nat)
  | pkQctlTerminate (die q : Nat)
  | pkQctlResume (die q : Nat)
  | pkQctlReset (die q : Nat)
  | pkSemWrite (p s : Nat) (w : Word)
  | icCtlWrite (die q : Nat) (w : Word)
  | twResolveRetry (die p seq : Nat)
  | twResolveTerminate (die p seq : Nat)
  | twPdaddrWrite (die p : Nat) (w : Word)
  | twFrtailWrite (p : Nat) (w : Word)
  | egLockWrite (w : Word)
  | seAttreqWrite (w : Word)
  | registerWrite (die off size : Nat) (v : DWord) (src : Source)
  | mboxaccUpdate (data : BitVec 40)
  | sessionMigration (p : Nat) (m : MigrationStep)
  | upwardSwitchRequest (b : Nat)
  | ptpCorrection (port : Nat) (delta : Int)
  | pcieDownstreamRequest (a : OuterAccess)
  | viaductRetrain (die : Nat)
  | sramScrub (m : Space) (addr : Nat) (f : EccFinding)
  | lpddrScrub (addr : Nat) (f : EccFinding)
  | moduleReset (images : List BootImage)
  | applicationCoreAccess (a : OuterAccess)
  | viaductFlitReplay (die : Nat)
  | ethernetFrameReceived (port : Nat) (good : Bool)
  deriving DecidableEq, Repr, Inhabited

end Sys2Proof
end

