-- ==== Sys2Proof/WellFormed.lean ====
section
/-! DEFINITION. The checks that an instruction's own fields decide: the RESERVED_FIELD cases of R120, R126 and R128
and of each instruction's entry that no state enters into. An instruction that fails them is never decoded. -/
namespace Sys2Proof

/-- Registers that one value of the type takes (R92). -/
def Ty.regs : Ty → Nat
  | .i64 | .n64 => 2
  | _ => 1

/-- Elements of a 32-bit word of a packed type, 1 otherwise (R91, R93). -/
def Ty.elems : Ty → Nat
  | .i16x2 | .n16x2 | .f16x2 | .bf16x2 => 2
  | .i8x4 | .n8x4 | .e4m3x4 | .e5m2x4 => 4
  | .e2m1x8 => 8
  | _ => 1

/-- The set I of R179. -/
def Ty.setI : Ty → Bool
  | .i32 | .n32 | .i16x2 | .n16x2 | .i8x4 | .n8x4 | .i64 | .n64 => true
  | _ => false
/-- The set L of R179. -/
def Ty.setL (t : Ty) : Bool := t == .b32 || t.setI
/-- The set W of R179. -/
def Ty.setW : Ty → Bool
  | .b32 | .i32 | .n32 | .i64 | .n64 => true
  | _ => false
/-- The set B of R179. -/
def Ty.setB : Ty → Bool
  | .b32 | .i32 | .n32 => true
  | _ => false
/-- The set S of R179. -/
def Ty.setS : Ty → Bool
  | .i32 | .i16x2 | .i8x4 | .i64 => true
  | _ => false
/-- The set F of R179. -/
def Ty.setF : Ty → Bool
  | .f32 | .f16x2 | .bf16x2 => true
  | _ => false
/-- The set G of R179. -/
def Ty.setG : Ty → Bool
  | .f32 | .f16x2 | .bf16x2 | .e4m3x4 | .e5m2x4 | .e2m1x8 => true
  | _ => false

/-- The type code of R127. -/
def Ty.code : Ty → Nat
  | .b32 => 0 | .i32 => 1 | .n32 => 2 | .i16x2 => 3 | .n16x2 => 4 | .i8x4 => 5 | .n8x4 => 6
  | .f32 => 8 | .f16x2 => 9 | .bf16x2 => 10 | .e4m3x4 => 11 | .e5m2x4 => 12 | .e2m1x8 => 13
  | .i64 => 16 | .n64 => 17

/-- The type of a code of R127, none where the code is reserved. -/
def Ty.ofCode : Nat → Option Ty
  | 0 => some .b32 | 1 => some .i32 | 2 => some .n32 | 3 => some .i16x2 | 4 => some .n16x2
  | 5 => some .i8x4 | 6 => some .n8x4 | 8 => some .f32 | 9 => some .f16x2 | 10 => some .bf16x2
  | 11 => some .e4m3x4 | 12 => some .e5m2x4 | 13 => some .e2m1x8 | 16 => some .i64 | 17 => some .n64
  | _ => none

/-- What an instruction makes of a register field of the lane format. -/
inductive Fld where
  /-- not used: must be 0 (R126) -/
  | zero
  /-- `n` vector registers, the first a multiple of `al` -/
  | vec (n al : Nat)
  /-- a lane predicate in bits 2:0 (R176) -/
  | pred
  /-- `n` uniform registers, the first a multiple of `al` -/
  | uni (n al : Nat)
  /-- half the number of an even uniform register (R125) -/
  | base
  /-- a selector, with the truth of its own check -/
  | sel (ok : Bool)
  deriving DecidableEq, Repr

/-- The value of a field of kind `f` breaks no rule. -/
def Fld.ok : Fld → BitVec 8 → Bool
  | .zero, v => v == 0
  | .vec _ al, v => v.toNat % al == 0
  | .pred, v => v.toNat < 8
  | .uni _ al, v => v.toNat % al == 0
  | .base, _ => true
  | .sel ok, _ => ok

/-- The field names a vector register. -/
def Fld.isVec : Fld → Bool
  | .vec _ _ => true
  | _ => false

/-- What an entry says of one lane instruction (R126, R176). -/
structure LaneRule where
  /-- the type is accepted -/
  ty    : Bool
  forms : List Form
  /-- the instruction takes a rounding mode -/
  rnd   : Bool := false
  /-- the instruction takes the splat bit -/
  splat : Bool := true
  /-- the instruction sets a flag -/
  flag  : Bool := false
  /-- the instruction reads through the operand latch -/
  latch : Bool := true
  d     : Fld
  a     : Fld
  /-- registers of operand b, 0 where there is none -/
  bn    : Nat := 0
  /-- the vb field names a lane predicate -/
  bPred : Bool := false
  c     : Fld := .sel false
  /-- the entry's own check of the immediate -/
  imm   : Bool := true
  /-- the entry's own check of the guard -/
  guard : Bool := true

/-- The selector of a memory form with the index switched off (R206). -/
def noIndex (sel : BitVec 8) : Bool := sel.getLsbD 7

/-- A selector is at most `n`. -/
def selLe (v : BitVec 8) (n : Nat) : Fld := .sel (v.toNat ≤ n)

/-- Registers moved by a load or store of this size and type (R209). -/
def memRegs (sel : BitVec 8) (t : Ty) : Nat :=
  if sel.toNat % 16 == 3 then 4 else if sel.toNat % 16 == 0 then t.regs else 1

/-- The size and type of a load or store are a row of R209, and bits 5:4 are 0. -/
def memSelOk (sel : BitVec 8) (t : Ty) : Bool :=
  (sel.toNat / 16 % 4 == 0) &&
  (match sel.toNat % 16 with
   | 0 => true
   | 1 => t.setB
   | 2 => t.setB
   | 3 => t == .b32
   | _ => false)

/-- The operation and type of an atomic are a row of R211, and bits 6:4 are 0. -/
def atomSelOk (sel : BitVec 8) (t : Ty) (ret : Bool) : Bool :=
  (sel.toNat / 16 % 8 == 0) &&
  (match sel.toNat % 16 with
   | 8 => ret && (t.setW || t == .f32)
   | 9 => ret && t.setW
   | 10 | 11 | 12 => t == .f32
   | 13 | 14 | 15 => false
   | _ => t.setW)

/-- The operation of `vred` and `vscan` accepts the type (R202). -/
def redOk (op : Nat) (t : Ty) : Bool :=
  match op with
  | 0 | 1 | 2 => t == .i32 || t == .n32 || t == .f32 || t == .i64 || t == .n64
  | 3 | 4 | 5 => t.setW
  | _ => false

/-- The type pairs of `vcvt` (R192): destination, source. -/
def cvtOk (d s : Ty) : Bool :=
  let g1 : List Ty := [.i32, .n32, .f32, .i64, .n64]
  let g2 : List Ty := [.i16x2, .n16x2, .f16x2, .bf16x2]
  let g3 : List Ty := [.i8x4, .n8x4, .e4m3x4, .e5m2x4]
  (d != s) && ((g1.contains d && g1.contains s) || (g2.contains d && g2.contains s) ||
    (g3.contains d && g3.contains s))

/-- A value of `t` in a vector register or an even pair (R92). -/
def wideV (t : Ty) : Fld := .vec t.regs t.regs
/-- One vector register. -/
def oneV : Fld := .vec 1 1
/-- The selector must be 0. -/
def noSel (l : LaneOp) : Fld := selLe l.vc 0

/-- Forms 0, 1 and 2. -/
def forms012 : List Form := [.reg, .imm, .uni]

/-- A binary instruction (R180, R186). -/
def binRule (l : LaneOp) (ok rnd : Bool) : LaneRule :=
  { ty := ok, forms := forms012, rnd := rnd, d := wideV l.ty, a := wideV l.ty, bn := l.ty.regs, c := noSel l }
/-- An instruction with a register c (R180, R186). -/
def terRule (l : LaneOp) (ok rnd : Bool) : LaneRule :=
  { binRule l ok rnd with c := wideV l.ty }
/-- A unary instruction (R176). -/
def unRule (l : LaneOp) (ok rnd : Bool) : LaneRule :=
  { ty := ok, forms := [.reg], rnd := rnd, d := wideV l.ty, a := wideV l.ty, c := noSel l }
/-- A shift (R181, R107): operand b is one register, and a form-1 amount lies below the width. -/
def shiftRule (l : LaneOp) : LaneRule :=
  { binRule l l.ty.setW false with bn := 1, imm := l.form != .imm || l.imm.toNat < 32 * l.ty.regs }
/-- A special function (R191). -/
def sfuRule (l : LaneOp) : LaneRule := unRule l l.ty.setF true
/-- An engine command (R278). -/
def engRule (l : LaneOp) (n al : Nat) (d a c : Fld) : LaneRule :=
  { ty := l.ty == .b32, forms := [.uni], flag := true, latch := false, d := d, a := a, c := c, bn := n,
    imm := l.imm.toNat % al == 0 }
/-- A branch or end instruction (R227). It takes no latch bits, `vbrx` with its vector register neither: a choice of the model
(log 131). -/
def ctlRule (l : LaneOp) (f : Form) (a : Fld) (imm guard : Bool) : LaneRule :=
  { ty := l.ty == .b32, forms := [f], latch := false, d := .zero, a := a, c := .zero, imm := imm, guard := guard }

/-- The entry of each lane instruction. -/
def Instr.laneRule : Instr → Option (LaneOp × LaneRule)
  | .vadd l | .vsub l | .vmul l | .vmin l | .vmax l => some (l, binRule l l.ty.setI false)
  | .vmulh l =>
    some (l, binRule l (l.ty == .i32 || l.ty == .n32 || l.ty == .i16x2 || l.ty == .n16x2) false)
  | .vmad l =>
    some (l, terRule l (l.ty == .i32 || l.ty == .n32 || l.ty == .i16x2 || l.ty == .n16x2 || l.ty.regs == 2) false)
  | .vabs l | .vneg l => some (l, unRule l (l.ty.setS || l.ty.setG) false)
  | .vand l | .vor l | .vxor l | .vandn l => some (l, binRule l l.ty.setL false)
  | .vnot l => some (l, unRule l l.ty.setL false)
  | .vshl l | .vshr l | .vsar l | .vrotl l => some (l, shiftRule l)
  | .vclz l | .vpopc l | .vbrev l => some (l, unRule l l.ty.setB false)
  | .vbfe l => some (l, binRule l l.ty.setB false)
  | .vbfi l => some (l, terRule l (l.ty == .b32) false)
  | .vaddc l | .vsubb l => some (l, { binRule l (l.ty == .n32) false with c := selLe l.vc 7 })
  | .vsad l => some (l, terRule l (l.ty == .n8x4 || l.ty == .n16x2) false)
  | .vdp4 l => some (l, terRule l (l.ty == .i8x4 || l.ty == .n8x4) false)
  | .vcmp l =>
    some (l, { binRule l l.ty.setW false with d := .pred, c := selLe l.vc (if l.ty == .b32 then 1 else 5) })
  | .vpop l =>
    let r : LaneRule := { ty := l.ty == .b32, forms := [.reg], d := .zero, a := .zero, c := selLe l.vc 6 }
    some (l, match l.vc.toNat with
      | 0 | 1 | 2 | 3 => { r with d := .pred, a := .pred, bPred := true }
      | 4 => { r with d := .pred, a := .pred }
      | 5 => { r with d := oneV }
      | _ => { r with a := oneV })
  | .vsel l => some (l, { binRule l true false with c := selLe l.vc 7 })
  | .vfadd l | .vfsub l | .vfmul l | .vfscl l => some (l, binRule l l.ty.setF true)
  | .vfma l => some (l, terRule l l.ty.setF true)
  | .vfmin l | .vfmax l => some (l, binRule l l.ty.setF false)
  | .vfrnd l => some (l, unRule l l.ty.setF true)
  | .vfrac l | .vclass l => some (l, unRule l l.ty.setF false)
  | .vdot2 l => some (l, terRule l (l.ty == .f16x2 || l.ty == .bf16x2) true)
  | .vfcmp l => some (l, { binRule l (l.ty == .f32) false with d := .pred, c := selLe l.vc 7 })
  | .vrcp l | .vrsq l | .vsqrt l | .vexp2 l | .vlog2 l | .vsin l | .vcos l | .vtanh l => some (l, sfuRule l)
  | .vcvt l =>
    let s := (Ty.ofCode l.vc.toNat).getD .b32
    some (l, { unRule l true true with
      a := wideV s, c := .sel ((Ty.ofCode l.vc.toNat).isSome && cvtOk l.ty s) })
  | .vpack l =>
    some (l, { binRule l (1 < l.ty.elems) true with splat := false, c := selLe l.vc (l.ty.elems / 2 - 1) })
  | .vunpk l => some (l, { unRule l (1 < l.ty.elems) false with c := selLe l.vc (l.ty.elems - 1) })
  | .vquant l =>
    some (l, { binRule l (l.ty == .e4m3x4 || l.ty == .e5m2x4 || l.ty == .e2m1x8) true with
      splat := false, c := selLe l.vc (l.ty.elems - 1) })
  | .vquantScale l =>
    some (l, { unRule l (l.ty == .e4m3x4 || l.ty == .e5m2x4 || l.ty == .e2m1x8) false with
      c := .sel (l.vc == 0x80) })
  | .vmov l => some (l, { binRule l true false with forms := [.reg, .uni], a := .zero })
  | .vmovi l => some (l, { binRule l true false with forms := [.imm], a := .zero })
  | .vsrd l => some (l, { binRule l (l.ty == .b32) false with forms := [.imm], a := .zero })
  | .vshfl l => some (l, { binRule l (l.ty == .b32) false with c := selLe l.vc 3 })
  | .vred l =>
    some (l, { unRule l true (l.vc == 0 && l.ty == .f32) with
      flag := true, d := .uni l.ty.regs l.ty.regs, c := .sel (redOk l.vc.toNat l.ty) })
  | .vscan l =>
    some (l, { unRule l true (l.vc.toNat % 8 == 0 && l.ty == .f32) with
      c := .sel (l.vc.toNat < 16 && redOk (l.vc.toNat % 8) l.ty) })
  | .vballot l => some (l, { unRule l (l.ty == .b32) false with flag := true, d := .uni 1 1, a := Fld.pred })
  | .vfirst l => some (l, { unRule l (l.ty == .b32) false with flag := true, d := .uni 1 1, a := .zero })
  | .vld l =>
    let n := memRegs l.vc l.ty
    some (l, {
      ty := true, forms := [.mem], rnd := true, flag := true, d := .vec n n, a := .base,
      bn := if noIndex l.vc then 0 else 1, c := .sel (memSelOk l.vc l.ty) })
  | .vst l =>
    let n := memRegs l.vd l.ty
    some (l, {
      ty := true, forms := [.mem], rnd := true, flag := true, d := .sel (memSelOk l.vd l.ty), a := .base,
      bn := if noIndex l.vd then 0 else 1, c := .vec n n })
  | .vatom l =>
    let n := if l.vc.toNat % 16 == 9 then 2 * l.ty.regs else l.ty.regs
    some (l, {
      ty := true, forms := [.mem], rnd := true, flag := true, d := .vec n n, a := .base,
      bn := if noIndex l.vc then 0 else 1, c := .sel (atomSelOk l.vc l.ty true) })
  | .vmred l =>
    some (l, {
      ty := true, forms := [.mem], rnd := true, flag := true, d := .sel (atomSelOk l.vd l.ty false),
      a := .base, bn := if noIndex l.vd then 0 else 1, c := wideV l.ty })
  | .vprf l =>
    some (l, {
      ty := l.ty == .b32, forms := [.mem], rnd := true, d := .zero, a := .base,
      bn := if noIndex l.vc then 0 else 1, c := .sel (l.vc.toNat % 128 ≤ 1) })
  | .vbr l => some (l, ctlRule l .imm .zero true true)
  | .vbrx l => some (l, ctlRule l .imm oneV (l.imm.toNat < 65536) true)
  | .vend l => some (l, ctlRule l .reg .zero true (l.pred == 7 && !l.neg))
  | .vexit l => some (l, ctlRule l .reg .zero true true)
  | .vnop l => some (l, ctlRule l .reg .zero true true)
  | .vfeed l =>
    some (l, {
      ty := l.ty == .b32, forms := [.imm, .uni], flag := true, latch := false, d := .zero,
      a := .vec (l.vc.toNat / 4 % 8 + 1) 1, bn := 1, c := .sel (l.vc.toNat % 4 != 3 && l.vc.toNat < 64),
      imm := l.form != .imm || l.imm.toNat < 65536 })
  | .vaccr l =>
    some (l, {
      ty := l.ty == .b32, forms := [.imm, .uni], flag := true, latch := false, d := .vec 8 8,
      a := .zero, bn := 1, c := .zero, imm := l.form != .imm || l.imm.toNat < 1024 })
  | .vaccw l =>
    some (l, {
      ty := l.ty == .b32, forms := [.imm, .uni], flag := true, latch := false, d := .zero,
      a := .vec 8 8, bn := 1, c := .zero, imm := l.form != .imm || l.imm.toNat < 1024 })
  | .vsamp l => some (l, engRule l 1 1 .zero (.vec 8 8) .zero)
  | .vtrace l => some (l, engRule l 2 2 (.vec 4 4) (.vec 8 8) .zero)
  | .vprobe l => some (l, engRule l 4 4 (.vec 4 4) oneV .zero)
  | .vtex l => some (l, engRule l 2 2 (.vec 4 4) (.vec 3 1) .zero)
  | .vsgat l => some (l, engRule l 2 2 (.sel (l.vd != 0)) oneV oneV)
  | .vrowpk l => some (l, engRule l 2 2 (selLe l.vd 1) (.vec 3 1) oneV)
  | _ => none

/-- The vb and imm fields agree with the form (R125). -/
def LaneRule.bOk (r : LaneRule) (l : LaneOp) : Bool :=
  match l.form with
  | .reg => (if r.bn == 0 then l.vb.toNat < (if r.bPred then 8 else 1) else l.vb.toNat % r.bn == 0) && l.imm == 0
  | .imm => l.vb == 0 || (l.vb == 0x80 && r.splat && 1 < l.ty.elems)
  | .uni => l.vb == 0 && l.imm.toNat < 512 && l.imm.toNat % r.bn == 0
  | .mem => r.bn != 0 || l.vb == 0

/-- Operand b is read from a vector register. -/
def LaneRule.bVec (r : LaneRule) (l : LaneOp) : Bool :=
  r.bn != 0 && (l.form == .reg || l.form == .mem)

/-- The latch bits of a position are 0 unless the position is read from a vector register (R126). -/
def LaneRule.latchOk (r : LaneRule) (l : LaneOp) : Bool :=
  let ok := fun (k : Nat) (v : Bool) => (r.latch && v) || (!l.use.getLsbD k && !l.hold.getLsbD k)
  ok 2 r.a.isVec && ok 1 (r.bVec l) && ok 0 r.c.isVec

/-- A lane instruction breaks no rule of R126 that its own fields decide. -/
def LaneRule.ok (r : LaneRule) (l : LaneOp) : Bool :=
  r.ty && r.forms.contains l.form && (r.rnd || l.rnd == 0) && (r.flag || !l.slot) && r.guard && r.imm &&
  r.d.ok l.vd && r.a.ok l.va && r.c.ok l.vc && r.bOk l && r.latchOk l

/-- A register number is even. -/
def even (r : Reg) : Bool := r.toNat % 2 == 0
/-- The registers of a pair form are even (R120, R147). -/
def pairOk (p : Bool) (rs : List Reg) : Bool := !p || rs.all even
/-- The flag field names a flag or none (R120). -/
def flagOk (f : FlagField) : Bool := f.toNat < 12 || f == 15

/-- The widths of `sext` and `zext` (R150). -/
def extOk (p : Bool) (n : BitVec 2) (d : Reg) : Bool := n != 3 && (p || n != 2) && pairOk p [d]

/-- An instruction whose fields break no rule. The events of the machine have no fields that could. -/
def Instr.wf (i : Instr) : Bool :=
  match i.laneRule with
  | some (l, r) => r.ok l
  | none =>
    match i with
    | .add d a b p | .sub d a b p | .mul d a b p | .and d a b p | .or d a b p | .xor d a b p
    | .andn d a b p | .min d a b p | .minn d a b p | .max d a b p | .maxn d a b p => pairOk p [d, a, b]
    | .shl d a _ p | .shr d a _ p | .sar d a _ p | .rotl d a _ p => pairOk p [d, a]
    | .clz d a p | .ctz d a p | .popc d a p | .mov d a p => pairOk p [d, a]
    | .sext d _ p n | .zext d _ p n => extOk p n d
    | .cmp _ _ _ k => k.toNat < 10
    | .cmpi k _ _ _ => k.toNat < 10
    | .sel d a b p _ => pairOk p [d, a, b]
    | .ldB _ a f _ | .ldBn _ a f _ | .ldH _ a f _ | .ldHn _ a f _ | .ldW _ a f _
    | .stB _ a f _ | .stH _ a f _ | .stW _ a f _ => even a && flagOk f
    | .ldD d a f _ | .stD d a f _ => even a && even d && flagOk f
    | .atom d a f z o =>
      even a && flagOk f && o.toNat < 10 &&
        d.toNat % (if o.toNat == 9 then (if z then 4 else 2) else if z then 2 else 1) == 0
    | .waitp _ p => p.toNat < 5
    | .waitm a _ => even a
    | .ckick a _ => even a
    | .launch a => even a
    | .mma s f g => even s && f.toNat % 4 == 0 && flagOk g
    | .mqt a f => a.toNat % 4 == 0 && flagOk f
    | .mzero _ f => flagOk f
    | .mtld a _ f | .mtst a _ f => even a && flagOk f
    | .mfifoClaim _ _ s | .mfifoRelease s | .mfifoHead _ s | .mfifoSethead _ s => s != 3
    | .dkey a _ => even a
    | .ddraw a _ _ f => even a && f.toNat < 12
    | .dpos a _ f => even a && f.toNat < 12
    | .xband a f => even a && f.toNat < 12
    | .tlbinv a _ => even a
    | .clauseStart h => (!h.setAv || h.setA.toNat < 12) && (!h.setBv || h.setB.toNat < 12)
    | _ => true

end Sys2Proof
end

