-- ==== Sys2Proof/Decode.lean ====
section
/-! DEFINITION. The decoder of scalar words (R119 to R122) and lane words (R124 to R128, R136), total on any bits,
and the encoder, written from the same tables. -/
namespace Sys2Proof

/-- What a code word is. -/
inductive Decoded where
  /-- an instruction; an unassigned opcode is the event that takes ILLEGAL_OPCODE (R122, R136) -/
  | instr (i : Instr)
  /-- a word that takes RESERVED_FIELD, of an opcode that needs privilege or not (R137) -/
  | reserved (priv : Bool)
  deriving DecidableEq, Repr, Inhabited

/-- Bits `lo` to `lo + n - 1` of a word. -/
def fld (w lo n : Nat) : BitVec n := BitVec.ofNat n (w / 2 ^ lo)
/-- One bit of a word. -/
def bit (w k : Nat) : Bool := w / 2 ^ k % 2 == 1
/-- Bits `lo` to `lo + n - 1` of a word are zero. -/
def zero (w lo n : Nat) : Bool := w / 2 ^ lo % 2 ^ n == 0
/-- Field d, bits 24:18; the field a of S.X. -/
def rd (w : Nat) : Reg := fld w 18 7
/-- Field a, bits 17:11; the field b of S.X. -/
def ra (w : Nat) : Reg := fld w 11 7
/-- Field b, bits 10:4; the field c of S.X. -/
def rb (w : Nat) : Reg := fld w 4 7
/-- The instruction, if the fields that must be zero are (R120). -/
def onlyIf (ok : Bool) (i : Instr) : Option Instr := if ok then some i else none

/-- Opcodes that take PRIVILEGED without the privilege (R137). -/
def privOpcode (op : Nat) : Bool := op == 105 || op == 106 || op == 107 || op == 109 || op == 110

/-- Opcodes of the map of R122 that hold no instruction. -/
def scalarUnassigned (op : Nat) : Bool :=
  op == 0 || (43 ≤ op && op < 48) || (59 ≤ op && op < 64) || (101 ≤ op && op < 104) || 111 ≤ op

/-- The instruction of a scalar word, none where a field that must be zero is not or a form is reserved. -/
def scalarFields (w : Nat) : Option Instr :=
  let z := zero w
  match w / 2 ^ 25 % 128 with
  | 1 => onlyIf (z 0 3) (.add (rd w) (ra w) (rb w) (bit w 3))
  | 2 => onlyIf (z 0 3) (.sub (rd w) (ra w) (rb w) (bit w 3))
  | 3 => onlyIf (z 0 3) (.mul (rd w) (ra w) (rb w) (bit w 3))
  | 4 => onlyIf (z 0 4) (.mulh (rd w) (ra w) (rb w))
  | 5 => onlyIf (z 0 4) (.mulhn (rd w) (ra w) (rb w))
  | 6 => onlyIf (z 0 4) (.divi (rd w) (ra w) (rb w))
  | 7 => onlyIf (z 0 4) (.divn (rd w) (ra w) (rb w))
  | 8 => onlyIf (z 0 4) (.remi (rd w) (ra w) (rb w))
  | 9 => onlyIf (z 0 4) (.remn (rd w) (ra w) (rb w))
  | 10 => onlyIf (z 0 3) (.and (rd w) (ra w) (rb w) (bit w 3))
  | 11 => onlyIf (z 0 3) (.or (rd w) (ra w) (rb w) (bit w 3))
  | 12 => onlyIf (z 0 3) (.xor (rd w) (ra w) (rb w) (bit w 3))
  | 13 => onlyIf (z 0 3) (.andn (rd w) (ra w) (rb w) (bit w 3))
  | 14 => onlyIf (z 0 3) (.shl (rd w) (ra w) (rb w) (bit w 3))
  | 15 => onlyIf (z 0 3) (.shr (rd w) (ra w) (rb w) (bit w 3))
  | 16 => onlyIf (z 0 3) (.sar (rd w) (ra w) (rb w) (bit w 3))
  | 17 => onlyIf (z 0 3) (.rotl (rd w) (ra w) (rb w) (bit w 3))
  | 18 => onlyIf (z 0 3) (.min (rd w) (ra w) (rb w) (bit w 3))
  | 19 => onlyIf (z 0 3) (.minn (rd w) (ra w) (rb w) (bit w 3))
  | 20 => onlyIf (z 0 3) (.max (rd w) (ra w) (rb w) (bit w 3))
  | 21 => onlyIf (z 0 3) (.maxn (rd w) (ra w) (rb w) (bit w 3))
  | 22 => onlyIf (z 0 3 && z 4 7) (.clz (rd w) (ra w) (bit w 3))
  | 23 => onlyIf (z 0 3 && z 4 7) (.ctz (rd w) (ra w) (bit w 3))
  | 24 => onlyIf (z 0 3 && z 4 7) (.popc (rd w) (ra w) (bit w 3))
  | 25 => onlyIf (z 2 1 && z 4 7) (.sext (rd w) (ra w) (bit w 3) (fld w 0 2))
  | 26 => onlyIf (z 2 1 && z 4 7) (.zext (rd w) (ra w) (bit w 3) (fld w 0 2))
  | 27 => onlyIf (z 21 4) (.cmp (fld w 18 3) (ra w) (rb w) (fld w 0 4))
  | 28 =>
    (match w % 16 with
     | 0 => onlyIf (z 21 4 && z 14 4 && z 7 4) (.qand (fld w 18 3) (fld w 11 3) (fld w 4 3))
     | 1 => onlyIf (z 21 4 && z 14 4 && z 7 4) (.qor (fld w 18 3) (fld w 11 3) (fld w 4 3))
     | 2 => onlyIf (z 21 4 && z 14 4 && z 7 4) (.qxor (fld w 18 3) (fld w 11 3) (fld w 4 3))
     | 3 => onlyIf (z 21 4 && z 14 4 && z 7 4) (.qandn (fld w 18 3) (fld w 11 3) (fld w 4 3))
     | 4 => onlyIf (z 21 4 && z 14 4 && z 4 7) (.qnot (fld w 18 3) (fld w 11 3))
     | 5 => onlyIf (z 4 14) (.qget (rd w))
     | 6 => onlyIf (z 18 7 && z 4 7) (.qset (ra w))
     | _ => none)
  | 29 => some (.sel (rd w) (ra w) (rb w) (bit w 3) (fld w 0 3))
  | 30 => onlyIf (z 0 3 && z 4 7) (.mov (rd w) (ra w) (bit w 3))
  | 31 => onlyIf (z 11 7) (.srd (rd w) (fld w 0 11))
  | 32 => some (.addi (rd w) (ra w) (fld w 0 11))
  | 33 => some (.andi (rd w) (ra w) (fld w 0 11))
  | 34 => some (.ori (rd w) (ra w) (fld w 0 11))
  | 35 => some (.xori (rd w) (ra w) (fld w 0 11))
  | 36 => onlyIf (z 5 6) (.shli (rd w) (ra w) (fld w 0 5))
  | 37 => onlyIf (z 5 6) (.shri (rd w) (ra w) (fld w 0 5))
  | 38 => onlyIf (z 5 6) (.sari (rd w) (ra w) (fld w 0 5))
  | 39 => some (.cmpi (fld w 21 4) (fld w 18 3) (ra w) (fld w 0 11))
  | 40 => onlyIf (z 0 2) (.movi (rd w) (fld w 2 16))
  | 41 => onlyIf (z 0 2) (.movhi (rd w) (fld w 2 16))
  | 42 => onlyIf (z 0 7) (.gmov (fld w 16 9) (fld w 7 9))
  | 48 => some (.ldB (rd w) (ra w) (fld w 7 4) (fld w 0 7))
  | 49 => some (.ldBn (rd w) (ra w) (fld w 7 4) (fld w 0 7))
  | 50 => some (.ldH (rd w) (ra w) (fld w 7 4) (fld w 0 7))
  | 51 => some (.ldHn (rd w) (ra w) (fld w 7 4) (fld w 0 7))
  | 52 => some (.ldW (rd w) (ra w) (fld w 7 4) (fld w 0 7))
  | 53 => some (.ldD (rd w) (ra w) (fld w 7 4) (fld w 0 7))
  | 54 => some (.stB (rd w) (ra w) (fld w 7 4) (fld w 0 7))
  | 55 => some (.stH (rd w) (ra w) (fld w 7 4) (fld w 0 7))
  | 56 => some (.stW (rd w) (ra w) (fld w 7 4) (fld w 0 7))
  | 57 => some (.stD (rd w) (ra w) (fld w 7 4) (fld w 0 7))
  | 58 => onlyIf (z 5 2) (.atom (rd w) (ra w) (fld w 7 4) (bit w 4) (fld w 0 4))
  | 64 => onlyIf (w / 2 ^ 21 % 16 == 14) (.jmp (fld w 0 21))
  | 65 => some (.bq (fld w 22 3) (bit w 21) (fld w 0 21))
  | 66 => onlyIf (w / 2 ^ 21 % 16 == 14) (.call (fld w 0 21))
  | 67 => onlyIf (z 0 25) .ret
  | 68 => onlyIf (z 0 18) (.jr (rd w))
  | 69 => onlyIf (z 11 7) (.loop (rd w) (fld w 0 11))
  | 70 => onlyIf (z 0 25) .exit
  | 71 => onlyIf (z 0 25) .yield
  | 72 => onlyIf (z 0 25) .nop
  | 73 => onlyIf (z 0 2 && z 18 7) (.lrun (fld w 2 16))
  | 74 => onlyIf (z 0 11) (.lrunx (rd w) (ra w))
  | 75 => onlyIf (z 0 25) .lsync
  | 76 => onlyIf (z 0 2 && z 14 11) (.fwait (fld w 2 12))
  | 77 => onlyIf (z 4 14) (.waitp (rd w) (fld w 0 4))
  | 78 => onlyIf (z 0 18) (.waitz (rd w))
  | 79 =>
    (match w % 4 with
     | 0 => onlyIf (z 6 12) (.bar (rd w) (fld w 2 4))
     | 1 => onlyIf (z 6 12) (.bara (rd w) (fld w 2 4))
     | 2 => onlyIf (z 6 12 && z 18 7) (.barw (fld w 2 4))
     | _ => none)
  | 80 =>
    (match w % 4 with
     | 0 => onlyIf (z 2 23) .fenceAcq
     | 1 => onlyIf (z 2 23) .fenceRel
     | 2 => onlyIf (z 2 23) .fenceAr
     | _ => onlyIf (z 2 23) .opfence)
  | 81 => onlyIf (z 0 25) .cpass
  | 82 => onlyIf (z 0 2 && z 18 7) (.swpt (fld w 2 16))
  | 83 => onlyIf (z 0 11) (.ckick (rd w) (ra w))
  | 84 => onlyIf (z 0 18) (.ccancel (rd w))
  | 85 => onlyIf (z 0 18) (.launch (rd w))
  | 86 => onlyIf (z 0 18) (.join (rd w))
  | 87 => onlyIf (z 0 2 && z 8 17) (.xsig (fld w 2 6))
  | 88 => onlyIf (z 0 2 && z 8 17) (.xwait (fld w 2 6))
  | 89 => onlyIf (z 4 7) (.mma (rd w) (ra w) (fld w 0 4))
  | 90 => onlyIf (z 4 14) (.mqt (rd w) (fld w 0 4))
  | 91 => onlyIf (z 4 14) (.mzero (rd w) (fld w 0 4))
  | 92 => onlyIf (z 4 7) (.mtld (rd w) (ra w) (fld w 0 4))
  | 93 => onlyIf (z 4 7) (.mtst (rd w) (ra w) (fld w 0 4))
  | 94 => onlyIf (z 0 25) .mwait
  | 95 =>
    (match w % 4 with
     | 0 => onlyIf (z 4 7) (.mfifoClaim (rd w) (ra w) (fld w 2 2))
     | 1 => onlyIf (z 4 21) (.mfifoRelease (fld w 2 2))
     | 2 => onlyIf (z 4 14) (.mfifoHead (rd w) (fld w 2 2))
     | _ => onlyIf (z 4 14) (.mfifoSethead (rd w) (fld w 2 2)))
  | 96 => onlyIf (z 0 11) (.dkey (rd w) (ra w))
  | 97 => some (.ddraw (rd w) (ra w) (rb w) (fld w 0 4))
  | 98 => onlyIf (z 4 7) (.dpos (rd w) (ra w) (fld w 0 4))
  | 99 => onlyIf (z 4 14) (.xband (rd w) (fld w 0 4))
  | 100 => onlyIf (z 0 11) (.waitm (rd w) (ra w))
  | 104 => onlyIf (z 0 2 && z 18 7) (.trap (fld w 2 16))
  | 105 =>
    (match w % 16 with
     | 0 => onlyIf (z 4 21) .eret
     | 1 => onlyIf (z 4 21) .eretSave
     | 2 => onlyIf (z 4 14) (.eretTerm (rd w))
     | _ => none)
  | 106 => some (.prd (fld w 16 9) (fld w 7 9) (fld w 0 7))
  | 107 => some (.pwr (fld w 16 9) (fld w 7 9) (fld w 0 7))
  | 108 => onlyIf (z 0 2 && z 18 7) (.brk (fld w 2 16))
  | 109 => onlyIf (z 0 11) (.tlbinv (rd w) (ra w))
  | 110 => onlyIf (z 0 25) .tlbsync
  | _ => none

/-- The scalar instruction of a word (R137, steps 2 to 4). -/
def decodeScalar (w : Nat) : Decoded :=
  let op := w / 2 ^ 25 % 128
  if scalarUnassigned op then .instr (.unassignedOpcodeIssue false w)
  else
    match scalarFields w with
    | some i => if i.wf then .instr i else .reserved (privOpcode op)
    | none => .reserved (privOpcode op)

/-- The form of bits 35:34 (R124). -/
def Form.ofCode (n : Nat) : Form :=
  match n with
  | 0 => .reg
  | 1 => .imm
  | 2 => .uni
  | _ => .mem
/-- The code of a form (R124). -/
def Form.code : Form → Nat
  | .reg => 0
  | .imm => 1
  | .uni => 2
  | .mem => 3

/-- The lane instruction of an opcode (R136). -/
def laneCtor (op : Nat) (sel7 : Bool) (l : LaneOp) : Option Instr :=
  match op with
  | 1 => some (.vadd l)
  | 2 => some (.vsub l)
  | 3 => some (.vmul l)
  | 4 => some (.vmulh l)
  | 5 => some (.vmad l)
  | 6 => some (.vabs l)
  | 7 => some (.vneg l)
  | 8 => some (.vmin l)
  | 9 => some (.vmax l)
  | 10 => some (.vand l)
  | 11 => some (.vor l)
  | 12 => some (.vxor l)
  | 13 => some (.vnot l)
  | 14 => some (.vandn l)
  | 15 => some (.vshl l)
  | 16 => some (.vshr l)
  | 17 => some (.vsar l)
  | 18 => some (.vrotl l)
  | 19 => some (.vclz l)
  | 20 => some (.vpopc l)
  | 21 => some (.vbrev l)
  | 22 => some (.vbfe l)
  | 23 => some (.vbfi l)
  | 24 => some (.vaddc l)
  | 25 => some (.vsubb l)
  | 26 => some (.vsad l)
  | 27 => some (.vdp4 l)
  | 28 => some (.vcmp l)
  | 29 => some (.vpop l)
  | 30 => some (.vsel l)
  | 64 => some (.vfadd l)
  | 65 => some (.vfsub l)
  | 66 => some (.vfmul l)
  | 67 => some (.vfma l)
  | 68 => some (.vfmin l)
  | 69 => some (.vfmax l)
  | 70 => some (.vfrnd l)
  | 71 => some (.vfrac l)
  | 72 => some (.vdot2 l)
  | 73 => some (.vfscl l)
  | 74 => some (.vfcmp l)
  | 75 => some (.vclass l)
  | 96 => some (.vrcp l)
  | 97 => some (.vrsq l)
  | 98 => some (.vsqrt l)
  | 99 => some (.vexp2 l)
  | 100 => some (.vlog2 l)
  | 101 => some (.vsin l)
  | 102 => some (.vcos l)
  | 103 => some (.vtanh l)
  | 104 => some (.vcvt l)
  | 105 => some (.vpack l)
  | 106 => some (.vunpk l)
  | 107 => some (if sel7 then .vquantScale l else .vquant l)
  | 112 => some (.vmov l)
  | 113 => some (.vmovi l)
  | 114 => some (.vsrd l)
  | 115 => some (.vshfl l)
  | 116 => some (.vred l)
  | 117 => some (.vscan l)
  | 118 => some (.vballot l)
  | 119 => some (.vfirst l)
  | 128 => some (.vld l)
  | 129 => some (.vst l)
  | 130 => some (.vatom l)
  | 131 => some (.vmred l)
  | 132 => some (.vprf l)
  | 160 => some (.vbr l)
  | 161 => some (.vbrx l)
  | 162 => some (.vend l)
  | 163 => some (.vexit l)
  | 164 => some (.vnop l)
  | 176 => some (.vfeed l)
  | 177 => some (.vaccr l)
  | 178 => some (.vaccw l)
  | 192 => some (.vsamp l)
  | 193 => some (.vtrace l)
  | 194 => some (.vprobe l)
  | 195 => some (.vtex l)
  | 196 => some (.vsgat l)
  | 197 => some (.vrowpk l)
  | _ => none

/-- The fields of a lane word, none where the type code is reserved (R124, R127). -/
def laneFields (w : Nat) : Option LaneOp :=
  (Ty.ofCode (w / 2 ^ 36 % 64)).map fun t =>
    { dist := fld w 85 3, pred := fld w 82 3, neg := bit w 81, slot := bit w 80
      vd := fld w 72 8, va := fld w 64 8, vb := fld w 56 8, vc := fld w 48 8
      use := fld w 45 3, hold := fld w 42 3, ty := t, form := Form.ofCode (w / 2 ^ 34 % 4)
      rnd := fld w 32 2, imm := fld w 0 32 }

/-- The header of a lane word (R128). -/
def headerFields (w : Nat) : Header :=
  { wait := fld w 76 12, setAv := bit w 75, setA := fld w 71 4, setBv := bit w 70, setB := fld w 66 4
    count := fld w 63 3, yield := bit w 62 }

/-- The opcode of a lane word. -/
def laneOpcode (w : Nat) : Nat := w / 2 ^ 88 % 256

/-- The lane instruction or clause header of a 96-bit word (R137, steps 2 to 4). -/
def decodeLane (w : Nat) : Decoded :=
  let op := laneOpcode w
  if op == 255 then
    if zero w 0 62 && (Instr.clauseStart (headerFields w)).wf then .instr (.clauseStart (headerFields w))
    else .reserved false
  else
    match laneCtor op (bit w 55) default with
    | none => .instr (.unassignedOpcodeIssue true w)
    | some _ =>
      match laneFields w with
      | none => .reserved false
      | some l =>
        match laneCtor op (bit w 55) l with
        | some i => if i.wf then .instr i else .reserved false
        | none => .reserved false

/-- The instruction of a decoded word, if it is one. -/
def Decoded.instr? : Decoded → Option Instr
  | .instr i => some i
  | .reserved _ => none

/-- The host's reading of a word of the opcode table: 32-bit scalar words and 96-bit lane words. -/
def decodeTableWord (nbits w : Nat) : Option Instr :=
  if nbits ≤ 32 then (decodeScalar w).instr? else (decodeLane w).instr?

/-! The encoder. -/

/-- Format S.R (R119). -/
def sr (op : Nat) (d a b : Reg) (f : Nat) : Nat :=
  op * 2 ^ 25 + d.toNat * 2 ^ 18 + a.toNat * 2 ^ 11 + b.toNat * 2 ^ 4 + f
/-- The function field of a pair form. -/
def fn (p : Bool) (n : Nat) : Nat := p.toNat * 8 + n
/-- Format S.I. -/
def si (op : Nat) (d a : Reg) (i : Nat) : Nat := op * 2 ^ 25 + d.toNat * 2 ^ 18 + a.toNat * 2 ^ 11 + i
/-- Format S.L. -/
def sl (op : Nat) (d : Reg) (i f : Nat) : Nat := op * 2 ^ 25 + d.toNat * 2 ^ 18 + i * 2 ^ 2 + f
/-- Format S.M. -/
def sm (op : Nat) (d a : Reg) (f : FlagField) (o : Nat) : Nat :=
  op * 2 ^ 25 + d.toNat * 2 ^ 18 + a.toNat * 2 ^ 11 + f.toNat * 2 ^ 7 + o
/-- Format S.X. -/
def sx (op : Nat) (a b c : Reg) (f : Nat) : Nat :=
  op * 2 ^ 25 + a.toNat * 2 ^ 18 + b.toNat * 2 ^ 11 + c.toNat * 2 ^ 4 + f
/-- Format S.W. -/
def sw (op : Nat) (d s : BitVec 9) (f : Nat) : Nat := op * 2 ^ 25 + d.toNat * 2 ^ 16 + s.toNat * 2 ^ 7 + f

/-- The 96 bits of a lane instruction (R124). -/
def laneWord (op : Nat) (l : LaneOp) : Nat :=
  op * 2 ^ 88 + l.dist.toNat * 2 ^ 85 + l.pred.toNat * 2 ^ 82 + l.neg.toNat * 2 ^ 81 + l.slot.toNat * 2 ^ 80 +
  l.vd.toNat * 2 ^ 72 + l.va.toNat * 2 ^ 64 + l.vb.toNat * 2 ^ 56 + l.vc.toNat * 2 ^ 48 + l.use.toNat * 2 ^ 45 +
  l.hold.toNat * 2 ^ 42 + l.ty.code * 2 ^ 36 + l.form.code * 2 ^ 34 + l.rnd.toNat * 2 ^ 32 + l.imm.toNat

/-- The 96 bits of a clause header (R128). -/
def headerWord (h : Header) : Nat :=
  255 * 2 ^ 88 + h.wait.toNat * 2 ^ 76 + h.setAv.toNat * 2 ^ 75 + h.setA.toNat * 2 ^ 71 + h.setBv.toNat * 2 ^ 70 +
  h.setB.toNat * 2 ^ 66 + h.count.toNat * 2 ^ 63 + h.yield.toNat * 2 ^ 62

/-- The word of a scalar instruction. -/
def encodeScalar : Instr → Option Nat
  | .add d a b p => some (sr 1 d a b (fn p 0))
  | .sub d a b p => some (sr 2 d a b (fn p 0))
  | .mul d a b p => some (sr 3 d a b (fn p 0))
  | .mulh d a b => some (sr 4 d a b 0)
  | .mulhn d a b => some (sr 5 d a b 0)
  | .divi d a b => some (sr 6 d a b 0)
  | .divn d a b => some (sr 7 d a b 0)
  | .remi d a b => some (sr 8 d a b 0)
  | .remn d a b => some (sr 9 d a b 0)
  | .and d a b p => some (sr 10 d a b (fn p 0))
  | .or d a b p => some (sr 11 d a b (fn p 0))
  | .xor d a b p => some (sr 12 d a b (fn p 0))
  | .andn d a b p => some (sr 13 d a b (fn p 0))
  | .shl d a b p => some (sr 14 d a b (fn p 0))
  | .shr d a b p => some (sr 15 d a b (fn p 0))
  | .sar d a b p => some (sr 16 d a b (fn p 0))
  | .rotl d a b p => some (sr 17 d a b (fn p 0))
  | .min d a b p => some (sr 18 d a b (fn p 0))
  | .minn d a b p => some (sr 19 d a b (fn p 0))
  | .max d a b p => some (sr 20 d a b (fn p 0))
  | .maxn d a b p => some (sr 21 d a b (fn p 0))
  | .clz d a p => some (sr 22 d a 0 (fn p 0))
  | .ctz d a p => some (sr 23 d a 0 (fn p 0))
  | .popc d a p => some (sr 24 d a 0 (fn p 0))
  | .sext d a p n => some (sr 25 d a 0 (fn p n.toNat))
  | .zext d a p n => some (sr 26 d a 0 (fn p n.toNat))
  | .cmp q a b k => some (sr 27 (q.setWidth 7) a b k.toNat)
  | .qand d a b => some (sr 28 (d.setWidth 7) (a.setWidth 7) (b.setWidth 7) 0)
  | .qor d a b => some (sr 28 (d.setWidth 7) (a.setWidth 7) (b.setWidth 7) 1)
  | .qxor d a b => some (sr 28 (d.setWidth 7) (a.setWidth 7) (b.setWidth 7) 2)
  | .qandn d a b => some (sr 28 (d.setWidth 7) (a.setWidth 7) (b.setWidth 7) 3)
  | .qnot d a => some (sr 28 (d.setWidth 7) (a.setWidth 7) 0 4)
  | .qget d => some (sr 28 d 0 0 5)
  | .qset a => some (sr 28 0 a 0 6)
  | .sel d a b p q => some (sr 29 d a b (fn p q.toNat))
  | .mov d a p => some (sr 30 d a 0 (fn p 0))
  | .srd d i => some (si 31 d 0 i.toNat)
  | .addi d a i => some (si 32 d a i.toNat)
  | .andi d a i => some (si 33 d a i.toNat)
  | .ori d a i => some (si 34 d a i.toNat)
  | .xori d a i => some (si 35 d a i.toNat)
  | .shli d a i => some (si 36 d a i.toNat)
  | .shri d a i => some (si 37 d a i.toNat)
  | .sari d a i => some (si 38 d a i.toNat)
  | .cmpi k q a i => some (39 * 2 ^ 25 + k.toNat * 2 ^ 21 + q.toNat * 2 ^ 18 + a.toNat * 2 ^ 11 + i.toNat)
  | .movi d i => some (sl 40 d i.toNat 0)
  | .movhi d i => some (sl 41 d i.toNat 0)
  | .gmov d s => some (sw 42 d s 0)
  | .ldB d a f o => some (sm 48 d a f o.toNat)
  | .ldBn d a f o => some (sm 49 d a f o.toNat)
  | .ldH d a f o => some (sm 50 d a f o.toNat)
  | .ldHn d a f o => some (sm 51 d a f o.toNat)
  | .ldW d a f o => some (sm 52 d a f o.toNat)
  | .ldD d a f o => some (sm 53 d a f o.toNat)
  | .stB d a f o => some (sm 54 d a f o.toNat)
  | .stH d a f o => some (sm 55 d a f o.toNat)
  | .stW d a f o => some (sm 56 d a f o.toNat)
  | .stD d a f o => some (sm 57 d a f o.toNat)
  | .atom d a f z o => some (sm 58 d a f (z.toNat * 16 + o.toNat))
  | .jmp o => some (64 * 2 ^ 25 + 7 * 2 ^ 22 + o.toNat)
  | .bq q n o => some (65 * 2 ^ 25 + q.toNat * 2 ^ 22 + n.toNat * 2 ^ 21 + o.toNat)
  | .call o => some (66 * 2 ^ 25 + 7 * 2 ^ 22 + o.toNat)
  | .ret => some (sx 67 0 0 0 0)
  | .jr a => some (sx 68 a 0 0 0)
  | .loop d i => some (si 69 d 0 i.toNat)
  | .exit => some (sx 70 0 0 0 0)
  | .yield => some (sx 71 0 0 0 0)
  | .nop => some (sx 72 0 0 0 0)
  | .lrun i => some (sl 73 0 i.toNat 0)
  | .lrunx a b => some (sx 74 a b 0 0)
  | .lsync => some (sx 75 0 0 0 0)
  | .fwait m => some (sl 76 0 m.toNat 0)
  | .waitp a p => some (sx 77 a 0 0 p.toNat)
  | .waitz a => some (sx 78 a 0 0 0)
  | .bar d n => some (sl 79 d n.toNat 0)
  | .bara d n => some (sl 79 d n.toNat 1)
  | .barw n => some (sl 79 0 n.toNat 2)
  | .fenceAcq => some (sl 80 0 0 0)
  | .fenceRel => some (sl 80 0 0 1)
  | .fenceAr => some (sl 80 0 0 2)
  | .opfence => some (sl 80 0 0 3)
  | .cpass => some (sx 81 0 0 0 0)
  | .swpt n => some (sl 82 0 n.toNat 0)
  | .ckick a b => some (sx 83 a b 0 0)
  | .ccancel a => some (sx 84 a 0 0 0)
  | .launch a => some (sx 85 a 0 0 0)
  | .join a => some (sx 86 a 0 0 0)
  | .xsig s => some (sl 87 0 s.toNat 0)
  | .xwait s => some (sl 88 0 s.toNat 0)
  | .mma s f g => some (sx 89 s f 0 g.toNat)
  | .mqt a f => some (sx 90 a 0 0 f.toNat)
  | .mzero a f => some (sx 91 a 0 0 f.toNat)
  | .mtld a b f => some (sx 92 a b 0 f.toNat)
  | .mtst a b f => some (sx 93 a b 0 f.toNat)
  | .mwait => some (sx 94 0 0 0 0)
  | .mfifoClaim a b s => some (sx 95 a b 0 (4 * s.toNat))
  | .mfifoRelease s => some (sx 95 0 0 0 (4 * s.toNat + 1))
  | .mfifoHead a s => some (sx 95 a 0 0 (4 * s.toNat + 2))
  | .mfifoSethead a s => some (sx 95 a 0 0 (4 * s.toNat + 3))
  | .dkey a b => some (sx 96 a b 0 0)
  | .ddraw a d n f => some (sx 97 a d n f.toNat)
  | .dpos a d f => some (sx 98 a d 0 f.toNat)
  | .xband a f => some (sx 99 a 0 0 f.toNat)
  | .waitm a b => some (sx 100 a b 0 0)
  | .trap i => some (sl 104 0 i.toNat 0)
  | .eret => some (sx 105 0 0 0 0)
  | .eretSave => some (sx 105 0 0 0 1)
  | .eretTerm a => some (sx 105 a 0 0 2)
  | .prd d s k => some (sw 106 d s k.toNat)
  | .pwr d s k => some (sw 107 d s k.toNat)
  | .brk i => some (sl 108 0 i.toNat 0)
  | .tlbinv a b => some (sx 109 a b 0 0)
  | .tlbsync => some (sx 110 0 0 0 0)
  | _ => none

/-- The word of a lane instruction or a clause header. -/
def encodeLane : Instr → Option Nat
  | .clauseStart h => some (headerWord h)
  | .vadd l => some (laneWord 1 l)
  | .vsub l => some (laneWord 2 l)
  | .vmul l => some (laneWord 3 l)
  | .vmulh l => some (laneWord 4 l)
  | .vmad l => some (laneWord 5 l)
  | .vabs l => some (laneWord 6 l)
  | .vneg l => some (laneWord 7 l)
  | .vmin l => some (laneWord 8 l)
  | .vmax l => some (laneWord 9 l)
  | .vand l => some (laneWord 10 l)
  | .vor l => some (laneWord 11 l)
  | .vxor l => some (laneWord 12 l)
  | .vnot l => some (laneWord 13 l)
  | .vandn l => some (laneWord 14 l)
  | .vshl l => some (laneWord 15 l)
  | .vshr l => some (laneWord 16 l)
  | .vsar l => some (laneWord 17 l)
  | .vrotl l => some (laneWord 18 l)
  | .vclz l => some (laneWord 19 l)
  | .vpopc l => some (laneWord 20 l)
  | .vbrev l => some (laneWord 21 l)
  | .vbfe l => some (laneWord 22 l)
  | .vbfi l => some (laneWord 23 l)
  | .vaddc l => some (laneWord 24 l)
  | .vsubb l => some (laneWord 25 l)
  | .vsad l => some (laneWord 26 l)
  | .vdp4 l => some (laneWord 27 l)
  | .vcmp l => some (laneWord 28 l)
  | .vpop l => some (laneWord 29 l)
  | .vsel l => some (laneWord 30 l)
  | .vfadd l => some (laneWord 64 l)
  | .vfsub l => some (laneWord 65 l)
  | .vfmul l => some (laneWord 66 l)
  | .vfma l => some (laneWord 67 l)
  | .vfmin l => some (laneWord 68 l)
  | .vfmax l => some (laneWord 69 l)
  | .vfrnd l => some (laneWord 70 l)
  | .vfrac l => some (laneWord 71 l)
  | .vdot2 l => some (laneWord 72 l)
  | .vfscl l => some (laneWord 73 l)
  | .vfcmp l => some (laneWord 74 l)
  | .vclass l => some (laneWord 75 l)
  | .vrcp l => some (laneWord 96 l)
  | .vrsq l => some (laneWord 97 l)
  | .vsqrt l => some (laneWord 98 l)
  | .vexp2 l => some (laneWord 99 l)
  | .vlog2 l => some (laneWord 100 l)
  | .vsin l => some (laneWord 101 l)
  | .vcos l => some (laneWord 102 l)
  | .vtanh l => some (laneWord 103 l)
  | .vcvt l => some (laneWord 104 l)
  | .vpack l => some (laneWord 105 l)
  | .vunpk l => some (laneWord 106 l)
  | .vquant l => some (laneWord 107 l)
  | .vquantScale l => some (laneWord 107 l)
  | .vmov l => some (laneWord 112 l)
  | .vmovi l => some (laneWord 113 l)
  | .vsrd l => some (laneWord 114 l)
  | .vshfl l => some (laneWord 115 l)
  | .vred l => some (laneWord 116 l)
  | .vscan l => some (laneWord 117 l)
  | .vballot l => some (laneWord 118 l)
  | .vfirst l => some (laneWord 119 l)
  | .vld l => some (laneWord 128 l)
  | .vst l => some (laneWord 129 l)
  | .vatom l => some (laneWord 130 l)
  | .vmred l => some (laneWord 131 l)
  | .vprf l => some (laneWord 132 l)
  | .vbr l => some (laneWord 160 l)
  | .vbrx l => some (laneWord 161 l)
  | .vend l => some (laneWord 162 l)
  | .vexit l => some (laneWord 163 l)
  | .vnop l => some (laneWord 164 l)
  | .vfeed l => some (laneWord 176 l)
  | .vaccr l => some (laneWord 177 l)
  | .vaccw l => some (laneWord 178 l)
  | .vsamp l => some (laneWord 192 l)
  | .vtrace l => some (laneWord 193 l)
  | .vprobe l => some (laneWord 194 l)
  | .vtex l => some (laneWord 195 l)
  | .vsgat l => some (laneWord 196 l)
  | .vrowpk l => some (laneWord 197 l)
  | _ => none

/-- The words of an instruction: how many bits, and the bits. The events of the machine have none. -/
def encode (i : Instr) : Option (Nat × Nat) :=
  match encodeScalar i, encodeLane i with
  | some w, _ => some (32, w)
  | none, some w => some (96, w)
  | none, none => none

end Sys2Proof
end

