-- ==== Sys2Proof/Machine/Cells.lean ====
section
/-! DEFINITION. Reads and writes of the sparse stores, little-endian bytes (R3), bit fields and lane masks. -/
namespace Sys2Proof

/-- The cell at `a`, or the default where none is listed. -/
def Cells.get {n : Nat} (d : BitVec n) : Cells n → Nat → BitVec n
  | [], _ => d
  | (k, v) :: t, a => if a = k then v else Cells.get d t a

/-- The store without the cell at `a`. -/
def Cells.erase {n : Nat} (m : Cells n) (a : Nat) : Cells n := m.filter fun c => c.1 != a

/-- A cell entered before the first greater key. -/
def Cells.enter {n : Nat} : Cells n → Nat → BitVec n → Cells n
  | [], a, v => [(a, v)]
  | (k, w) :: t, a, v => if a < k then (a, v) :: (k, w) :: t else (k, w) :: Cells.enter t a v

/-- The store with the cell at `a` holding `v`, in canonical form. -/
def Cells.set {n : Nat} (d : BitVec n) (m : Cells n) (a : Nat) (v : BitVec n) : Cells n :=
  if v = d then m.erase a else (m.erase a).enter a v

/-- Every key is at least `lo`, the keys rise, and no cell holds the default. -/
def Cells.wfFrom {n : Nat} (d : Nat → BitVec n) : Nat → Cells n → Bool
  | _, [] => true
  | lo, (k, v) :: t => decide (lo ≤ k) && decide (v ≠ d k) && Cells.wfFrom d (k + 1) t

/-- The canonical form of a store. -/
def Cells.wf {n : Nat} (d : Nat → BitVec n) (m : Cells n) : Bool := Cells.wfFrom d 0 m

/-- One byte of a memory. What nothing has written reads as 0 (log 1). -/
def Mem.byte (m : Mem) (a : Nat) : Byte := Cells.get 0 m a
/-- The memory with one byte stored. -/
def Mem.setByte (m : Mem) (a : Nat) (v : Byte) : Mem := Cells.set 0 m a v
/-- The canonical form of a memory. -/
def Memory.wf (m : Mem) : Bool := Cells.wf (fun _ => 0) m

/-- `n` bytes from `a` upward. -/
def Mem.read (m : Mem) (a n : Nat) : List Byte := (List.range n).map fun i => Mem.byte m (a + i)
/-- The bytes stored from `a` upward. -/
def Mem.write (m : Mem) (a : Nat) : List Byte → Mem
  | [] => m
  | b :: t => Mem.write (Mem.setByte m a b) (a + 1) t

/-- The memory with `n` bytes from `a` upward zero. -/
def Mem.clear (m : Mem) (a n : Nat) : Mem := m.filter fun c => decide (c.1 < a) || decide (a + n ≤ c.1)

/-- The number that little-endian bytes hold (R3). -/
def leNat : List Byte → Nat
  | [] => 0
  | b :: t => b.toNat + 256 * leNat t
/-- The `n` little-endian bytes of a number (R3). -/
def leBytes : Nat → Nat → List Byte
  | 0, _ => []
  | n + 1, v => BitVec.ofNat 8 v :: leBytes n (v / 256)

/-- Bits `hi` to `lo` of a number, as the field tables of the spec name them. -/
def bits (v hi lo : Nat) : Nat := v / 2 ^ lo % 2 ^ (hi + 1 - lo)
/-- One bit of a number, as a truth value. -/
def bitAt (v k : Nat) : Bool := v / 2 ^ k % 2 == 1

/-- A number read as two's complement of `w` bits. -/
def signed (w v : Nat) : Int := if v % 2 ^ w < 2 ^ (w - 1) then (v % 2 ^ w : Nat) else (v % 2 ^ w : Nat) - (2 ^ w : Nat)

/-- The word of a number. -/
def word (v : Nat) : Word := BitVec.ofNat 32 v
/-- The low and high word of a 64-bit value (R92). -/
def loWord (v : DWord) : Word := v.setWidth 32
/-- The high word of a 64-bit value. -/
def hiWord (v : DWord) : Word := (v >>> 32).setWidth 32
/-- The 64-bit value of a low and a high word (R92). -/
def dword (lo hi : Word) : DWord := hi ++ lo

/-- The mask of one lane. -/
def laneBit (l : Nat) : Word := 1#32 <<< l
/-- The lane is in the mask. -/
def inMask (m : Word) (l : Nat) : Bool := m.getLsbD l
/-- The lanes of a mask, ascending. -/
def lanesOf (m : Word) : List Nat := (List.range 32).filter (inMask m)
/-- The mask of the lanes for which `p` holds. -/
def maskOf (p : Nat → Bool) : Word :=
  (List.range 32).foldl (fun m l => if p l then m ||| laneBit l else m) 0
/-- The lowest lane of a mask, 32 where it is empty. -/
def lowest (m : Word) : Nat := ((lanesOf m).head?).getD 32

/-- The value of one lane. -/
def lane (v : Lanes) (l : Nat) : Word := v.getD l 0
/-- The list with element `i` replaced. -/
def setNth {α : Type} : List α → Nat → α → List α
  | [], _, _ => []
  | _ :: t, 0, v => v :: t
  | x :: t, n + 1, v => x :: setNth t n v

/-- Numbers from `a`, `n` of them. -/
def upFrom (a n : Nat) : List Nat := (List.range n).map (a + ·)

/-- `x` rounded up to a multiple of `m`. -/
def roundUp (x m : Nat) : Nat := (x + m - 1) / m * m

/-! ### Ranks -/

/-- The order of lists of numbers, position by position. -/
def listLe : List Nat → List Nat → Bool
  | [], _ => true
  | _, [] => false
  | a :: s, b :: t => if a < b then true else if b < a then false else listLe s t

/-- A pair enters a list sorted by its first part. -/
def insertRank {α : Type} (x : List Nat × α) : List (List Nat × α) → List (List Nat × α)
  | [] => [x]
  | y :: t => if listLe x.1 y.1 then x :: y :: t else y :: insertRank x t

/-- A list sorted by a rank. -/
def sortRank {α : Type} (f : α → List Nat) (l : List α) : List α :=
  (l.foldr (fun a r => insertRank (f a, a) r) []).map (·.2)

end Sys2Proof
end

