-- ==== Sys2Proof/Config.lean ====
section
/-! DEFINITION. What an implementation fixes and the values the spec leaves open. An opaque constant has no
body that a proof could use: whatever is proved holds for every value of it. -/
namespace Sys2Proof.Config

/-- An open 32-bit value, applied to the counter `State.free` (log 4). -/
opaque freeWord : Nat → BitVec 32
/-- VESA DSC 1.2a coding of a band: bits per component, target bits per pixel times 16, width, pixels (R404). -/
opaque dscEncode : Nat → Nat → Nat → List (BitVec 32) → List (BitVec 8)
/-- The identifier of a queue context, of a stack and a queue (R323). -/
opaque contextId : Nat → Nat → BitVec 32
/-- SHA-384 of a byte string, 48 bytes in the order of the standard (R415). -/
opaque sha384 : List (BitVec 8) → List (BitVec 8)
/-- ECDSA over brainpoolP384r1 with the device identity key: r then s, 96 bytes big-endian (R415). -/
opaque sign : List (BitVec 8) → List (BitVec 8)
/-- The picture parameter set of VESA DSC 1.2a: bits per component, target bits per pixel times 16, width (R404). -/
opaque dscParameters : Nat → Nat → Nat → List (BitVec 8)
/-- The fused SHA-384 of the firmware's public key (R414). -/
opaque fusedKeyHash : List (BitVec 8)
/-- The fused rollback counter (R414). -/
opaque rollbackCounter : Nat
/-- The firmware images whose digests attestation reports (R414, R415): 0 packet core, 1 security engine, 2 hub. -/
opaque firmware : Nat → List (BitVec 8)

/-- Cores of a stack (R1). -/
def cores : Nat := 128
/-- Core columns of a stack (R1). -/
def columns : Nat := 16
/-- Bytes of one core store, 1.5 MiB (R1). -/
def coreStoreBytes : Nat := 1572864
/-- Register units of 128 bytes in the core-store share of a quarter, 384 KiB (R28). -/
def quarterUnits : Nat := 3072
/-- Uniform registers of a quarter (R28). -/
def quarterUniform : Nat := 8192
/-- Accumulator tiles of a core (R28). -/
def coreTiles : Nat := 768
/-- Barrier slots of a core (R28). -/
def coreBarriers : Nat := 16
/-- Groups resident on a quarter (R28). -/
def quarterGroups : Nat := 16
/-- Register units of 128 bytes in a group frame of 3,072 bytes (R28). -/
def frameUnits : Nat := 24
/-- Positions of operand streams A, B and M of a core (R235). -/
def streamPositions : Nat → Nat
  | 0 => 2048
  | 1 => 2048
  | _ => 256
/-- Bytes of scene memory, 192 GiB (R1). -/
def sceneBytes : Nat := 206158430208
/-- Bytes of the sample buffer of a stack (R1). -/
def sampleBytes : Nat := 469762048
/-- Records of the pending pool of a stack (R373). -/
def poolRecords : Nat := 4096
/-- Slots a request engine holds (R169). -/
def engineSlots : Nat := 256
/-- Divergence-stack entries the model grants at a fresh placement; R54 gives 64 as the descriptor's value. -/
def grantedEntries : Nat := 64

end Sys2Proof.Config
end

