-- ==== Sys2Proof/Machine/State.lean ====
section
/-! DEFINITION. The state of the module as plain data, and the state after reset. Every piece of state that spec/
names has a field here; INVENTORY.md lists them with their rules and reset values. -/
namespace Sys2Proof.Machine

/-- Why a step stops. -/
inductive Fault where
  /-- Raised by the meaning of a scalar or lane instruction when no stream is issuing it. No step makes such a
  call; the machine has no state in which it could happen. Safe: nothing can be proved from it. -/
  | noIssuer
  deriving DecidableEq, Repr

/-- Why the model gives an instruction no meaning. -/
inductive Refusal where
  /-- Raised by the dispatcher of instructions for a row of the table without a meaning yet. Safe. -/
  | notModelled (mnemonic : String)
  deriving DecidableEq, Repr

/-- The trap codes of R311. -/
inductive Code where
  | illegalOpcode | reservedField | privileged | misaligned | attributeStraddle | accessViolation | sliceUnmapped
  | matrixCombination | feedPendingWrite | tokenOrder | launchDepth | remoteFault | remoteTimeout | breakpoint
  | watchpoint | singleStep | software | preempt | uncorrectable | registerRange
  deriving DecidableEq, Repr, Inhabited

/-- Precise, deferred, asynchronous (R310). -/
inductive Delivery where
  | precise | deferred | asynchronous
  deriving DecidableEq, Repr, Inhabited

/-- A trap that has been raised (R310, R311). -/
structure Trap where
  code     : Code := .illegalOpcode
  delivery : Delivery := .precise
  lane     : Bool := false
  /-- path slot 0 or 1, 2 in serial mode, 3 the scalar stream -/
  slot     : Nat := 3
  laneIndex : Nat := 0
  pc       : Word := 0
  mask     : Word := 0
  info     : Word := 0
  address  : Nat := 0
  resume   : Word := 0
  word     : Word := 0
  /-- the operation of a deferred fault -/
  op       : Option Nat := none
  deriving DecidableEq, Repr, Inhabited

/-- A stall reason of R389, by its number. -/
abbrev Reason := Nat

/-! ### Lane paths -/

/-- The states of a path slot (R324, words 20 to 35). -/
inductive PathState where
  | free | running | arrived | parked
  deriving DecidableEq, Repr, Inhabited

/-- A fixed-latency write that is not yet visible (R131): one register, or one predicate, of some lanes. -/
structure Pend where
  pred : Bool := false
  reg  : Nat := 0
  mask : Word := 0
  vals : Lanes := []
  /-- the sum of the distances of the instructions issued since -/
  age  : Nat := 0
  lat  : Nat := 0
  deriving DecidableEq, Repr, Inhabited

/-- One entry of the operand latch (R135). -/
structure Latch where
  reg  : Nat := 0
  pair : Bool := false
  lo   : Lanes := []
  hi   : Lanes := []
  /-- lane instructions of the path for which the entry is still valid -/
  left : Nat := 0
  deriving DecidableEq, Repr, Inhabited

/-- Serial mode of a path (R225): the branch index, its reconvergence index and the running lane. -/
structure Serial where
  branch : Nat := 0
  rcv    : Nat := 0
  lane   : Nat := 0
  deriving DecidableEq, Repr, Inhabited

/-- A path slot (R220) with the clause in progress (R128, R129). -/
structure Path where
  st     : PathState := .free
  pc     : Nat := 0
  mask   : Word := 0
  rc     : Option Nat := none
  w      : Word := 0
  serial : Option Serial := none
  /-- instructions of the clause still to issue, 0 at a clause boundary -/
  left   : Nat := 0
  setA   : Option Nat := none
  setB   : Option Nat := none
  pend   : List Pend := []
  la     : Option Latch := none
  lb     : Option Latch := none
  lc     : Option Latch := none
  /-- the page of the unanswered record on which the path is parked (R218) -/
  park   : Option Nat := none
  /-- a reissue of a parked instruction counts nothing again (R218): the number of its operation -/
  again  : Option Nat := none
  /-- it stands inside its clause where a trap, a page or a debug stop left it, and has issued nothing since (R309, R386) -/
  atTrap : Bool := false
  /-- the index of the `vbrx` to which its lanes come back (R229) -/
  xAt    : Option Nat := none
  deriving DecidableEq, Repr, Inhabited

/-- A divergence-stack entry (R221). -/
structure Entry where
  waitPc   : Nat := 0
  waitMask : Word := 0
  rcv      : Nat := 0
  outer    : Option Nat := none
  merge    : Word := 0
  phase    : Bool := false
  deriving DecidableEq, Repr, Inhabited

/-- The execution state of kernel or handler mode (R306, R324). -/
structure Ctx where
  pc      : Word := 0
  q       : BitVec 7 := 0
  /-- p0 to p6 of each lane -/
  preds   : Cells 7 := []
  queue   : List (Nat × Word) := []
  busy    : Bool := false
  start   : Word := 0
  done    : Word := 0
  p0      : Path := {}
  p1      : Path := {}
  s0      : List Entry := []
  s1      : List Entry := []
  granted : Nat := 64
  flags   : List Nat := List.replicate 12 0
  paths   : List Nat := List.replicate 5 0
  deriving DecidableEq, Repr, Inhabited

/-! ### Accesses and operations -/

/-- Where a byte lies. -/
inductive Loc where
  /-- a byte of one of the memories -/
  | mem (sp : Space) (key : Nat)
  /-- an offset in the register alias window of the issuing group (R52) -/
  | regWindow (off : Nat)
  /-- an offset in the neighbourhood window, resolved when the access arrives (R48, R50) -/
  | nbhd (off : Nat)
  deriving DecidableEq, Repr, Inhabited

/-- The access of the scalar stream or of one lane. -/
structure Acc where
  lane  : Nat := 0
  va    : Nat := 0
  /-- the runs of bytes: place of the first and number -/
  locs  : List (Loc × Nat) := []
  data  : List Byte := []
  path  : Nat := 0
  /-- checked when it arrives at its core: slice and neighbourhood windows (R49, R50) -/
  slice : Bool := false
  /-- crosses Viaduct (R345) -/
  peer  : Bool := false
  held  : Bool := false
  /-- performed at its home before its turn to return: at the arrival -/
  performed : Bool := false
  fault : Option Code := none
  /-- the bytes read, when the access was performed at arrival -/
  got   : List Byte := []
  /-- it has crossed to the other stack, and its answer will not come (R345, R408) -/
  lost  : Bool := false
  deriving DecidableEq, Repr, Inhabited

/-- Atomic operations by the number of R157 and R211, with the element width in bytes. -/
structure AtomOp where
  op   : Nat := 0
  size : Nat := 4
  deriving DecidableEq, Repr, Inhabited

/-- Where a returned value goes. -/
inductive Dst where
  | none
  /-- uniform registers from this number -/
  | uni (reg : Nat)
  /-- vector registers from this number -/
  | vec (reg : Nat)
  deriving DecidableEq, Repr, Inhabited

/-- A run of pages with one translation: of an extent (R337), or of a leaf. -/
structure Run where
  va   : Nat := 0
  len  : Nat := 0
  pte  : DWord := 0
  deriving DecidableEq, Repr, Inhabited

/-- A memory operation in flight. -/
inductive MemKind where
  /-- bytes per lane, and whether the value is sign-extended -/
  | load (size : Nat) (signed : Bool)
  | store
  | atomic (a : AtomOp)
  deriving DecidableEq, Repr, Inhabited

/-- The description of an `mma` (R240, R241), read from its registers at issue. -/
structure MmaDesc where
  w0 : Word := 0
  w1 : Word := 0
  w2 : Word := 0
  w3 : Word := 0
  s0 : Word := 0
  s1 : Word := 0
  /-- stream positions of the first A, B and metadata element, absolute in the segment -/
  posA : Nat := 0
  posB : Nat := 0
  posM : Nat := 0
  /-- the head of the partner's B segment -/
  posP : Nat := 0
  /-- the partner group of pair width -/
  pair : Option Nat := none
  deriving DecidableEq, Repr, Inhabited

/-- What an operation does when it completes. -/
inductive Work where
  | mem (k : MemKind) (dst : Dst) (accs : List Acc)
  /-- a collective's write of uniform registers (R205) -/
  | collective (reg : Nat) (vals : List Word)
  | mma (d : MmaDesc)
  | mzero (first count : Nat)
  /-- the tiles and the access; of an `mtst`, `held` says that it waits for the commit token -/
  | mtld (first count : Nat) (acc : Acc)
  | mtst (first count : Nat) (acc : Acc)
  | mqt (r0 r1 r2 r3 : Word)
  | vfeed (s pos reg n : Nat) (mask : Word) (strict : Bool)
  | vaccr (tile reg : Nat) (mask : Word)
  | vaccw (tile : Nat) (mask : Word) (vals : List Lanes)
  | vsamp (view : Word) (recs : List (Nat × List Word)) (held : Bool)
  | vsgat (view obj : Word) (mask : Nat) (srcs dsts : List (Nat × Word)) (part : Nat)
  | vtrace (root : Nat) (dst : Nat) (reqs : List (Nat × List Word))
  | vprobe (bins tris : Nat) (dst : Nat) (reqs : List (Nat × Word))
  | vtex (desc : Nat) (dst : Nat) (reqs : List (Nat × List Word))
  /-- pixel stores that wait for a page (R279, R291) -/
  | vrowpk (accs : List Acc)
  /-- the destination, the number of logits, the descriptor and the key, as read at issue -/
  | ddraw (dst n : Nat) (desc : List Byte) (key : List Word)
  | dpos (dst : Nat) (desc : List Byte) (key : List Word)
  | xband (band : Nat)
  deriving DecidableEq, Repr, Inhabited

/-- An asynchronous operation of a group, in issue order (R59, R123, R130). -/
structure Op where
  id     : Nat := 0
  /-- the mode that issued it: 0 kernel, 1 and 2 handler at depth 0 and 1 -/
  level  : Nat := 0
  work   : Work := .mzero 0 0
  flag   : Option Nat := none
  paths  : List Nat := []
  lane   : Bool := false
  slot   : Nat := 3
  /-- the stream that issued it: slot 0 or 1, 3 the scalar stream; `slot` is the index of R310 -/
  stream : Nat := 3
  pc     : Word := 0
  laneIndex : Nat := 0
  word   : Word := 0
  mask   : Word := 0
  /-- the page of an unanswered record on which the operation waits -/
  wait   : Option Nat := none
  /-- lanes of the operation that are parked (R218) -/
  parked : Word := 0
  /-- what lanes that have returned before parked ones have met: a watchpoint, its route, offset, and the lanes (R385) -/
  seen   : Option (Nat × Bool × Nat × Word) := none
  /-- the whole lane instruction -/
  full   : Nat := 0
  /-- the place in tile order of an operation on tiles (R248), in issue order of a draw (R270) -/
  seq    : Nat := 0
  /-- its handler entry has ended: its flag and counters are gone (R306, R307) -/
  orphan : Bool := false
  /-- clk at which an answer of the other stack is awaited since (R345) -/
  since  : Option Nat := none
  /-- its answer is lost in a failed retrain (R408) -/
  lost   : Bool := false
  /-- translations that it has obtained while it waits for others (R336) -/
  leaves : List Run := []
  deriving DecidableEq, Repr, Inhabited

/-- A deferred fault (R156, R217) with what its access raised. -/
structure Deferred where
  op    : Nat := 0
  trap  : Trap := {}
  flag  : Option Nat := none
  paths : List Nat := []
  level : Nat := 0
  matrix : Bool := false
  deriving DecidableEq, Repr, Inhabited

/-- A segment of an operand stream (R235). -/
structure Segment where
  base : Nat := 0
  len  : Nat := 0
  head : Nat := 0
  bytes : Mem := []
  deriving DecidableEq, Repr, Inhabited

/-- Registers fed to a stream whose flag has not been observed since (R255). -/
structure Feed where
  op   : Nat := 0
  reg  : Nat := 0
  n    : Nat := 1
  flag : Nat := 0
  strict : Bool := false
  /-- lanes whose path stands behind the `vfeed` in group order, and lanes whose path stands behind an observation of its flag -/
  past : Word := 0
  seen : Word := 0
  /-- the scalar stream stands behind the `vfeed` in group order -/
  pastS : Bool := false
  /-- it has observed the flag: the lane blocks enqueued before that which have not started -/
  seenS : Option Nat := none
  deriving DecidableEq, Repr, Inhabited

/-- A held store of a restored group (R320, class 4), or an abandoned draw command. -/
structure Held where
  words : Regs := []
  deriving DecidableEq, Repr, Inhabited

/-! ### Groups -/

/-- The modes of R304, with the depths of R307. -/
inductive Mode where
  | kernel | handler | nested
  deriving DecidableEq, Repr, Inhabited

/-- What a handler entry is for (R315, R319, R326). -/
inductive EntryKind where
  | trap | save | restore
  deriving DecidableEq, Repr, Inhabited

/-- The debug stop of a stream or path (R386). -/
structure Stop where
  stopped : Bool := false
  /-- a HALT, breakpoint or watchpoint stop that takes effect at the next boundary -/
  halt    : Bool := false
  /-- the kind of the stop (R383) -/
  kind    : Nat := 0
  /-- events to record at that boundary, each with the number of its operation: kind, info, address, mask -/
  events  : List (Nat × Nat × Word × Word × Word) := []
  /-- breakpoint matching is skipped once at this position (R382, R388) -/
  skip    : Option Nat := none
  /-- one instruction may issue, then a step event -/
  step    : Bool := false
  /-- a SINGLE_STEP follows each instruction -/
  trapEach : Bool := false
  deriving DecidableEq, Repr, Inhabited

/-- A group (R13, R17) and everything it holds. -/
structure Group where
  /-- identity: 192 · block identity + index -/
  uid    : Nat := 0
  block  : Nat := 0
  index  : Nat := 0
  die    : Nat := 0
  core   : Nat := 0
  quarter : Nat := 0
  /-- residency slot 0 to 63 of the core (R381) -/
  rslot  : Nat := 0
  vbase  : Nat := 0
  vwin   : Nat := 16
  uwin   : Nat := 128
  awin   : Nat := 0
  ureg   : Regs := []
  vreg   : Regs := []
  tile   : Regs := []
  sureg  : Regs := []
  svreg  : Regs := []
  k      : Ctx := {}
  h      : Ctx := {}
  mode   : Mode := .kernel
  entry  : EntryKind := .trap
  /-- an `eret` of a restore has been executed and waits for the block (R326) -/
  restored : Bool := false
  /-- an `eret.save` has been executed (R319) -/
  saved  : Bool := false
  live   : Word := BitVec.allOnes 32
  stimeHi : Word := 0
  clkHi  : Word := 0
  k0     : Word := 0
  k1     : Word := 0
  k2     : Word := 0
  segA   : Option Segment := none
  segB   : Option Segment := none
  segM   : Option Segment := none
  ops    : List Op := []
  nextOp : Nat := 0
  /-- held operations from the delivery of PREEMPT on (R320) -/
  frozen : List Op := []
  deferred : List Deferred := []
  /-- watchpoints waiting to be delivered (R312, R385) -/
  watch  : List Trap := []
  stepTraps : List Trap := []
  /-- PREEMPT waiting to be delivered: its info and its address -/
  preempt : Option (Word × Nat) := none
  /-- a precise trap of the scalar stream, of slot 0, of slot 1 waiting for the other streams' boundary (R309) -/
  trapS  : Option Trap := none
  trap0  : Option Trap := none
  trap1  : Option Trap := none
  feeds  : List Feed := []
  heldRec : List Held := []
  remainders : List (List Byte) := []
  /-- the generation of the group's last arrival at each barrier (R164) -/
  barLast : List (Option Word) := List.replicate 16 none
  /-- the barrier at which a `bar` has arrived whose generation it has not seen complete (R165), and the PC of that `bar` -/
  barAt  : Option Nat := none
  barPc  : Word := 0
  /-- the generation for which a barrier form waits at `barWaited`, other than after the arrival of its own `bar` (R165) -/
  barW   : Option Word := none
  /-- the barrier last waited on (R393) -/
  barWaited : Nat := 0
  /-- the switch point at which the group waits (R34) -/
  swAt   : Option Nat := none
  /-- a `swpt` under a request waits for what comes before its switch point (R34) -/
  swDrain : Bool := false
  /-- a `launch`, `join` count: children rejected or terminated since the last `join` (R173) -/
  lost   : Nat := 0
  /-- the scalar stream waits in `join` (R375) -/
  inJoin : Bool := false
  exited : Bool := false
  /-- parked whole on this page (R26): the context, and a handler entry -/
  parkWhole : Option Nat := none
  parkH  : Option Nat := none
  /-- a scalar access, or a fetch, waits on the record of this page -/
  pageWait : Option Nat := none
  /-- pages whose records the group's lane paths have written or joined, while the instruction has not come back to them -/
  asked  : List Nat := []
  /-- the object on the other stack that a `waitm` has asked for, and whether its answer was lost (R163, R345) -/
  waitPeer : Option Nat := none
  waitSince : Nat := 0
  waitLost : Bool := false
  /-- the mesh has failed to carry the read of the `waitm` that waits (R410) -/
  waitMesh : Bool := false
  /-- accesses, by group and operation, that used a translation invalidated since the last `tlbsync` (R317) -/
  inval  : List (Nat × Nat) := []
  /-- code fills that used one: stack, lane section or not, partition, address (R339) -/
  invalFills : List (Nat × Bool × Nat × Nat) := []
  /-- translations that the instruction at the PC has obtained while it waits for others (R336) -/
  leaves : List Run := []
  /-- control words and divergence-stack words that a restore handler has written (R316, R326) -/
  raw    : Regs := []
  /-- words among them of what the dispatcher has given the group (R316) -/
  given  : List Nat := []
  stopS  : Stop := {}
  stop0  : Stop := {}
  stop1  : Stop := {}
  /-- the kind of the last stop of a stream (R382) -/
  lastStop : Nat := 0
  stalls : List Nat := List.replicate 16 0
  /-- why the scalar stream and the lane stream did not issue when last tried -/
  whyS   : Option Reason := none
  whyL   : Option Reason := none
  /-- the reason counted on the last clk (R393) -/
  lastReason : Nat := 0
  issued : Bool := false
  lastSlot : Bool := false
  yielded : Bool := false
  deriving DecidableEq, Repr, Inhabited

/-! ### Images, grids, blocks -/

/-- One range of a live-state map (R144). -/
structure MapRange where
  id  : Nat := 0
  off : Nat := 0
  len : Nat := 0
  deriving DecidableEq, Repr, Inhabited

/-- A switch table entry with its live-state map (R144). -/
structure Switch where
  n   : Nat := 0
  off : Nat := 0
  v   : BitVec 256 := 0
  g   : BitVec 512 := 0
  ranges : List MapRange := []
  deriving DecidableEq, Repr, Inhabited

/-- A variant of an image (R143). -/
structure Variant where
  vregs : Nat := 16
  uregs : Nat := 128
  scratch : Nat := 0
  acc   : Nat := 0
  span  : Nat := 1
  /-- addresses of the code sections -/
  scalarVa : Nat := 0
  scalarSize : Nat := 0
  laneVa : Nat := 0
  laneSize : Nat := 0
  entry : Nat := 0
  switches : List Switch := []
  deriving DecidableEq, Repr, Inhabited

/-- A trap vector record (R308). -/
structure TrapVector where
  scalarBase : Nat := 0
  laneBase : Nat := 0
  scalarSize : Nat := 0
  laneSize : Nat := 0
  entry  : Nat := 0
  nested : Nat := 0
  handled : Nat := 0
  pool   : Nat := 0
  poolSize : Nat := 0
  deriving DecidableEq, Repr, Inhabited

/-- A declared extent (R354, R356). -/
structure Extent where
  slot : Nat := 0
  acc  : Nat := 0
  va   : Nat := 0
  len  : Nat := 0
  deriving DecidableEq, Repr, Inhabited

/-- The draws of a probe wave (R277): the registers its groups start with. -/
structure Wave where
  /-- one list of lane words for each vector register from v0, per group in order -/
  vregs : List (List Lanes) := []
  uregs : List (Nat × Word) := []
  deriving DecidableEq, Repr, Inhabited

/-- The states of a grid. -/
inductive GridState where
  | active | retired | complete
  deriving DecidableEq, Repr, Inhabited

/-- A grid (R13, R354, R373). -/
structure Grid where
  uid   : Nat := 0
  part  : Nat := 0
  die   : Nat := 0
  queue : Nat := 0
  parent : Option Nat := none
  depth : Nat := 0
  cls   : Nat := 2
  deadline : DWord := 0
  args  : DWord := 0
  threads : Nat := 32
  barriers : Nat := 0
  idem  : Bool := false
  strict : Bool := false
  variants : List Variant := []
  vector : TrapVector := {}
  x     : Nat := 1
  y     : Nat := 1
  z     : Nat := 1
  nbhd  : Nat := 0
  hold  : Bool := false
  colBytes : Nat := 0
  clusW : Nat := 0
  clusH : Nat := 0
  extents : List Extent := []
  record : Nat := 0
  completion : Nat := 0
  tag   : Nat := 0
  irq   : Bool := false
  acquire : Bool := false
  release : Bool := false
  /-- the order of arrival at the dispatcher (R363) -/
  arrival : Nat := 0
  next  : Nat := 0
  retired : Nat := 0
  /-- the leftmost core of the block placed last (R367) -/
  lastCore : Option Nat := none
  inPool : Bool := false
  st    : GridState := .active
  status : Nat := 0
  reason : Nat := 0
  wave  : Option Wave := none
  /-- the packet it came from -/
  packet : List Byte := []
  /-- the page and record on which an extent walk waits (R338) -/
  extentWait : Option Nat := none
  /-- counted by a `join` of its parent (R173) -/
  joined : Bool := false
  /-- clk at which the grid arrived: its units that have not been placed have waited since then (R363, R375) -/
  waitFrom : Nat := 0
  /-- the first blocks of its units for which the request of a class 1 victim has expired (R371) -/
  spent : List Nat := []
  deriving DecidableEq, Repr, Inhabited

/-- The states of a block. -/
inductive BlockState where
  /-- resident; stopping for a save; in the save handler; saved; aborted (R25); restoring; frozen for a move (R329);
  finished but not retired; retired -/
  | resident | stopping | saving | saved | aborted | restoring | frozen | finished | retired
  deriving DecidableEq, Repr, Inhabited

/-- A barrier of a block (R164) with its watchdog timer (R392). -/
structure Barrier where
  gen  : Word := 0
  arr  : Nat := 0
  exp  : Nat := 0
  /-- clk at which the timer started -/
  first : Option Nat := none
  /-- clk of the running time counted so far -/
  count : Nat := 0
  deriving DecidableEq, Repr, Inhabited

/-- Where one group of a block sits. -/
structure Seat where
  core  : Nat := 0
  quarter : Nat := 0
  vbase : Nat := 0
  rslot : Nat := 0
  deriving DecidableEq, Repr, Inhabited

/-- A place for a block: leftmost core, scratchpad shares, own-column offsets, and the seats of its groups. -/
structure Alloc where
  core  : Nat := 0
  shares : List (Nat × Nat) := []
  cols  : List Nat := []
  seats : List (Nat × Seat) := []
  deriving DecidableEq, Repr, Inhabited

/-- A pending switch request (R34, R370), with the place reserved for the new variant. -/
structure Request where
  target : Nat := 0
  posted : Nat := 0
  upward : Bool := false
  /-- the grid and first block of the unit it serves -/
  forGrid : Nat := 0
  forBlock : Nat := 0
  alloc : Alloc := {}
  deriving DecidableEq, Repr, Inhabited

/-- The part of a group that the save area does not hold and the dispatcher keeps (log 12). -/
structure Keep where
  index : Nat := 0
  barLast : List (Option Word) := []
  barAt : Option Nat := none
  barPc : Word := 0
  barW  : Option Word := none
  barWaited : Nat := 0
  lost  : Nat := 0
  inJoin : Bool := false
  exited : Bool := false
  exitPc : Word := 0
  live  : Word := 0
  stalls : List Nat := []
  /-- operations of a parked path and token-held accesses (R218, R320) -/
  held  : List Op := []
  nextOp : Nat := 0
  deferred : List Deferred := []
  feeds : List Feed := []
  stimeHi : Word := 0
  clkHi : Word := 0
  /-- lengths of segments A, B and M -/
  segs  : List Nat := []
  vwin  : Nat := 16
  deriving DecidableEq, Repr, Inhabited

/-- What is taken on one core (R28). -/
structure CoreUse where
  /-- byte ranges of the core store: first, length -/
  ranges : List (Nat × Nat) := []
  /-- those of them that are scratchpad shares -/
  shares : List (Nat × Nat) := []
  /-- quarters of the resident groups -/
  quarters : List Nat := []
  /-- quarter and uniform registers of each resident group -/
  uniform : List (Nat × Nat) := []
  tiles : Nat := 0
  bars  : Nat := 0
  slots : List Nat := []
  deriving DecidableEq, Repr, Inhabited

/-- What a victim has freed on a core and in its column, kept for the unit that it made room for (R36, R370). -/
structure Reserve where
  /-- the grid and the first block of the unit -/
  grid  : Nat := 0
  first : Nat := 0
  die   : Nat := 0
  core  : Nat := 0
  use   : CoreUse := {}
  /-- own-column bytes: offset and number -/
  col   : Nat × Nat := (0, 0)
  deriving DecidableEq, Repr, Inhabited

/-- A block (R13 to R16) that has been placed at least once. -/
structure Block where
  uid   : Nat := 0
  grid  : Nat := 0
  index : Nat := 0
  die   : Nat := 0
  st    : BlockState := .resident
  variant : Nat := 0
  startVariant : Nat := 0
  switches : Nat := 0
  moves : Nat := 0
  core  : Nat := 0
  span  : Nat := 1
  /-- offset and bytes of the scratchpad share in the core store of each spanned core (R28) -/
  shares : List (Nat × Nat) := []
  /-- offset of the own-column allocation in the bank of each spanned column (R51) -/
  cols  : List Nat := []
  colBytes : Nat := 0
  nBar  : Nat := 1
  /-- barrier slots that it holds on each of its cores: fewer than `nBar` only after a restore (R325) -/
  barSlots : Nat := 1
  bars  : List Barrier := List.replicate 16 {}
  req   : Option Request := none
  /-- the grid and first block of the unit for which it was pre-empted (R370) -/
  forUnit : Option (Nat × Nat) := none
  save  : Nat := 0
  reason : Nat := 0
  /-- clk of the delivery of PREEMPT (R319, R326) -/
  since : Nat := 0
  startClk : Option Nat := none
  extents : List Run := []
  slot  : Option Nat := none
  keeps : List Keep := []
  /-- the switch point at which every group waited when saved -/
  switchN : Nat := 0
  /-- parked under R375 until its joins can return -/
  parked : Bool := false
  /-- a pre-emption that waits for room in the save pool, or until the block stands still no more: its reason and the unit that
  it serves (R318, R330) -/
  wanted : Option (Nat × Option (Nat × Nat)) := none
  /-- clk since which it has waited to come back, after a save or an abort (R375) -/
  waitFrom : Nat := 0
  /-- aborted at this page, until its record is answered (R25, R344) -/
  abortPage : Option Nat := none
  deriving DecidableEq, Repr, Inhabited

/-! ### Copies, translation, queues, units -/

/-- The states of a copy request. -/
inductive CopyState where
  | queued | started
  deriving DecidableEq, Repr, Inhabited

/-- A copy request that has not ended (R62, R65). -/
structure Copy where
  id    : Nat := 0
  die   : Nat := 0
  core  : Nat := 0
  owner : Nat := 0
  /-- the address of the record, in the own-core window -/
  slotVa : Nat := 0
  bytes : List Byte := []
  ext   : Option (List Byte) := none
  st    : CopyState := .queued
  /-- destination offset of the bytes performed -/
  done  : Nat := 0
  cancelled : Bool := false
  /-- cut at the end of its chunk for a save (R321) -/
  cut   : Bool := false
  /-- bytes performed but not yet subtracted from the landing target -/
  owed  : Nat := 0
  /-- the status with which it ends, and whether bit 31 of its landing target is set (R60, R65) -/
  ending : Option (Nat × Bool) := none
  wait  : Option Nat := none
  /-- translations that it has obtained while it waits for others (R336) -/
  leaves : List Run := []
  /-- clk at which an answer of the other stack is awaited since, and whether it is lost (R345, R408) -/
  since : Option Nat := none
  lost  : Bool := false
  deriving DecidableEq, Repr, Inhabited

/-- The TLB classes of R335. -/
inductive TlbClass where
  | loadStore | request | fetch | base
  deriving DecidableEq, Repr, Inhabited

/-- A cached leaf (R335). -/
structure Tlb where
  die  : Nat := 0
  cls  : TlbClass := .loadStore
  /-- quarter, core or column -/
  unit : Nat := 0
  part : Nat := 0
  va   : Nat := 0
  size : Nat := 4096
  pte  : DWord := 0
  pinned : Bool := false
  deriving DecidableEq, Repr, Inhabited

/-- Who asked for a translation, for the fault record (R341). -/
structure Asker where
  cls   : TlbClass := .loadStore
  unit  : Nat := 0
  agent : Nat := 0
  op    : Nat := 0
  /-- the group, when there is one -/
  group : Option Nat := none
  core  : Nat := 0
  index : Nat := 0xFF
  pc    : Word := 0
  mask  : Word := 0
  va    : Nat := 0
  /-- the copy request, or the operation of the group, that asked -/
  copy  : Option Nat := none
  oper  : Option Nat := none
  /-- a lane path asks, which will come back to its instruction -/
  lane  : Bool := false
  /-- the band whose read asks -/
  band  : Option Nat := none
  /-- the grid and the queue whose context the record names -/
  grid  : Nat := 0
  queue : Nat := 0
  deriving DecidableEq, Repr, Inhabited

/-- A queued walk (R336). -/
structure Walk where
  part  : Nat := 0
  page  : Nat := 0
  askers : List Asker := []
  deriving DecidableEq, Repr, Inhabited

/-- An unanswered translation record, or one held for a full ring (R340, R342). -/
structure Unanswered where
  die  : Nat := 0
  part : Nat := 0
  page : Nat := 0
  code : Nat := 0
  /-- the ring position, none while the ring is full -/
  seq  : Option Nat := none
  queue : Nat := 0
  deriving DecidableEq, Repr, Inhabited

/-- A record waiting for a free ring slot (R340), with the page of a translation record. -/
structure HeldRecord where
  die   : Nat := 0
  part  : Nat := 0
  page  : Option Nat := none
  words : List Word := []
  deriving DecidableEq, Repr, Inhabited

/-- A stack's share of a partition (R346). -/
structure Share where
  cbHi : Nat := 0
  cbLo : Nat := 0
  sbSize : Nat := 0
  sbBase : Nat := 0
  enable : Bool := false
  rows : Nat := 1
  row0 : Nat := 0
  cols : Nat := 1
  col0 : Nat := 0
  deriving DecidableEq, Repr, Inhabited

/-- A valid partition on one stack (R346, R347). -/
structure Part where
  die  : Nat := 0
  num  : Nat := 0
  /-- address of the descriptor -/
  addr : Nat := 0
  a    : Share := {}
  b    : Share := {}
  sqBase : Nat := 0
  sqLimit : Nat := 0
  ringLog : Nat := 4
  ring : Nat := 0
  vector : Nat := 0
  root : Nat := 0
  /-- no grid has started since the descriptor became valid (R348) -/
  fresh : Bool := true
  vtime : Nat := 0
  /-- between the steps of R327 that pre-empt its blocks and restore them -/
  migrating : Bool := false
  /-- the place of its migration record in the save pool, with the number of pool records before it (R327) -/
  moved : Option (Nat × Nat) := none
  deriving DecidableEq, Repr, Inhabited

/-- The commit token of a partition on a stack (R38): the strict grid it serves and the logical identifier at
which it is. -/
structure Token where
  die  : Nat := 0
  part : Nat := 0
  grid : Nat := 0
  at_  : Nat := 0
  deriving DecidableEq, Repr, Inhabited

/-- An allocation of a save pool (R318). -/
structure PoolArea where
  part : Nat := 0
  base : Nat := 0
  size : Nat := 0
  block : Nat := 0
  deriving DecidableEq, Repr, Inhabited

/-- The partition to which a run of bytes last belonged (R348). -/
structure Owner where
  space : Space := .core
  base : Nat := 0
  size : Nat := 0
  part : Nat := 0
  deriving DecidableEq, Repr, Inhabited

/-- An entry of the walker's cache of upper-level entries: the table of the next lower level that the entry of a level names for the
addresses from `va` on (R331, R335). -/
structure Upper where
  die  : Nat := 0
  part : Nat := 0
  lvl  : Nat := 0
  va   : Nat := 0
  table : Nat := 0
  deriving DecidableEq, Repr, Inhabited

/-- A line of a code cache (R138). `bad`: the places of its bytes that were read as uncorrectable (R411). -/
structure CodeLine where
  die  : Nat := 0
  core : Nat := 0
  lane : Bool := false
  part : Nat := 0
  va   : Nat := 0
  bytes : List Byte := []
  bad  : List Nat := []
  deriving DecidableEq, Repr, Inhabited

/-- An outstanding code fill (R138). -/
structure Fill where
  lane : Bool := false
  part : Nat := 0
  va   : Nat := 0
  cores : List Nat := []
  /-- where the line lies in scene memory: first byte and number of each run -/
  locs  : List (Nat × Nat) := []
  deriving DecidableEq, Repr, Inhabited

/-- A packet in progress (R357). -/
structure Packet where
  queue : Nat := 0
  bytes : List Byte := []
  /-- the page on which a read of the packet core waits -/
  wait  : Option Nat := none
  /-- the queue stops once the packet is accepted or rejected (R353) -/
  stop  : Bool := false
  /-- the indices of the queue have been reset since it was taken (R353) -/
  stale : Bool := false
  deriving DecidableEq, Repr, Inhabited

/-- What leaves the module. -/
inductive Message where
  /-- a 32-bit store to an IMSIC (R379) -/
  | msi (addr : Nat) (data : Word)
  /-- an Ethernet frame of a port (R405, R406) -/
  | frame (port : Nat) (bytes : List Byte)
  /-- the picture parameter set of a slice, by the port of its slot (R404) -/
  | parameters (port : Nat) (bytes : List Byte)
  /-- a completion of a PCIe request: the data, or Unsupported Request (R409) -/
  | pcie (data : Option (List Byte))
  /-- the data of an application core's load, none where it is uncorrectable -/
  | load (data : Option (List Byte))
  /-- the word that an MBOXACC scan captures (R380) -/
  | scan (word : Word)
  deriving DecidableEq, Repr, Inhabited

/-- A coalescing unit (R378). -/
structure Coalesce where
  pending : Nat := 0
  /-- clk at which the timer expires -/
  timer : Option Nat := none
  deriving DecidableEq, Repr, Inhabited

/-- An event record of the debug block (R383). -/
structure Event where
  clk  : Word := 0
  info : Word := 0
  laneIndex : Nat := 0
  pc   : Word := 0
  mask : Word := 0
  address : Word := 0
  gid  : Nat := 0
  part : Nat := 0
  slot : Nat := 0
  kind : Nat := 0
  deriving DecidableEq, Repr, Inhabited

/-- A band handed to the egress unit (R292, R293). -/
structure Band where
  id    : Nat := 0
  die   : Nat := 0
  part  : Nat := 0
  grid  : Nat := 0
  group : Nat := 0
  core  : Nat := 0
  index : Nat := 0
  op    : Nat := 0
  level : Nat := 0
  /-- clk of the hand-off -/
  since : Nat := 0
  buffer : Nat := 0
  dest  : Nat := 0
  fmt   : Bool := false
  width : Nat := 0
  band  : Nat := 0
  deadline : DWord := 0
  /-- translations that its read has obtained, and the page for which it found none (R293, R336) -/
  leaves : List Run := []
  absent : Option Nat := none
  /-- pixel words, once every byte is read -/
  data  : Option (List Word) := none
  /-- the session time of the start, and fragments sent -/
  start : Option DWord := none
  sent  : Nat := 0
  slice : List Byte := []
  /-- discarded: a repeat-previous indication is owed -/
  dead  : Bool := false
  deriving DecidableEq, Repr, Inhabited

/-- A sample record on its way to the other stack (R283). -/
structure Forward where
  die   : Nat := 0
  part  : Nat := 0
  grid  : Nat := 0
  group : Nat := 0
  op    : Nat := 0
  /-- destination view and tile, and the record -/
  view  : Word := 0
  tile  : Nat := 0
  record : List Byte := []
  deriving DecidableEq, Repr, Inhabited

/-- The engine's sampler of a stack (R390). -/
structure Sampler where
  next : Option Nat := none
  count : Nat := 0
  deriving DecidableEq, Repr, Inhabited

/-- The power state of a stack (R417). -/
structure Power where
  st   : Nat := 0
  /-- a wake in progress, and the clk by which it ends -/
  wake : Option Nat := none
  /-- an entry to a lower state in progress -/
  toward : Option Nat := none
  deriving DecidableEq, Repr, Inhabited

/-- What issued last on a quarter of a core, on one of its two slots (R391). -/
structure Issue where
  quarter : Nat := 0
  gid  : Nat := 0
  part : Nat := 0
  lane : Bool := false
  /-- the scalar PC, or the lane index -/
  pos  : Nat := 0
  deriving DecidableEq, Repr, Inhabited

/-- What stays with each stack. -/
structure Die where
  walks : List Walk := []
  fills : List Fill := []
  packets : List Packet := []
  events : List Event := []
  coalesce : List (Nat × Coalesce) := []
  sampler : Sampler := {}
  power : Power := {}
  /-- what issued last on each quarter -/
  lastIssue : List Issue := []
  /-- a Viaduct retrain in progress, and replays of the flit (R408) -/
  retrain : Bool := false
  replays : Nat := 0
  /-- clk before which no unit is placed (R364) -/
  placeAt : Nat := 0
  /-- columns of the block moves of the last 10 ms, and the clk of each (R412) -/
  moves : List (Nat × Nat) := []
  /-- the mailbox port of the last command, and whether a command is running -/
  mboxPort : Nat := 0
  mboxBusy : Bool := false
  deriving DecidableEq, Repr, Inhabited

/-- A port of the Ethernet interface: its IEEE 1588 clock, datagram count and frames dropped. -/
structure Port where
  ptp  : Nat := 0
  ident : Nat := 0
  errors : Nat := 0
  deriving DecidableEq, Repr, Inhabited

/-- One turn of the machine (log 3). -/
inductive Turn where
  | scalar (g : Nat)
  | lane (g : Nat) (slot : Bool)
  | event (i : Instr)
  deriving DecidableEq, Repr, Inhabited

/-- The stream that issues the instruction being executed (log 3). -/
structure Cur where
  group : Nat := 0
  lane  : Bool := false
  slot  : Bool := false
  word  : Nat := 0
  deriving DecidableEq, Repr, Inhabited

/-- The module. -/
structure State where
  scene  : Mem
  core   : Mem
  bank   : Mem
  sample : Mem
  /-- words that read as uncorrectable (R413) -/
  poison : List (Space × Nat)
  /-- memory-mapped registers whose value is not the reset value -/
  mmio   : Cells 32
  clk    : Nat
  stime  : Nat
  /-- session time lags the PTP time after a backward correction: half units gained (R403) -/
  slew   : Bool
  port0  : Port
  port1  : Port
  recovery : Bool
  governed : Bool
  die0   : Die
  die1   : Die
  parts  : List Part
  tokens : List Token
  pool   : List PoolArea
  /-- what victims have freed for units that wait (R36, R370) -/
  reserves : List Reserve
  /-- the partition that each run of core-store or column-bank bytes last belonged to, newest first (R348) -/
  owners : List Owner
  tlbs   : List Tlb
  /-- the upper-level entries that the walkers hold (R335) -/
  upper  : List Upper
  unanswered : List Unanswered
  heldRecords : List HeldRecord
  lines  : List CodeLine
  grids  : List Grid
  blocks : List Block
  groups : List Group
  copies : List Copy
  bands  : List Band
  forwards : List Forward
  out    : List Message
  scan   : Word
  attest : Option (Nat × Nat)
  /-- the model's own: what the step takes next, who issues, used issue slots, inputs not yet taken -/
  agenda : List Turn
  cur    : Option Cur
  usedS  : List Nat
  usedL  : List Nat
  inputs : List (Nat × Instr)
  /-- the model's own: the count of free values taken (log 4), and fresh identities -/
  free   : Nat
  fresh  : Nat
  deriving DecidableEq, Repr

/-- The module after reset, booted and brought up to step 3 of R419 (log 2). -/
def State.reset : State :=
  { scene := [], core := [], bank := [], sample := [], poison := [], mmio := [], clk := 0, stime := 0, slew := false
    port0 := {}, port1 := {}, recovery := false, governed := false
    die0 := {}, die1 := {}, parts := [], tokens := [], pool := [], reserves := [], owners := [], tlbs := [], upper := [], unanswered := [], heldRecords := []
    lines := [], grids := [], blocks := [], groups := [], copies := [], bands := [], forwards := [], out := []
    scan := 0, attest := none, agenda := [], cur := none, usedS := [], usedL := [], inputs := []
    free := 0, fresh := 0 }

end Sys2Proof.Machine
end

