-- ==== Sys2Proof/Machine/Mmio.lean ====
section
/-! DEFINITION. The register window of each stack (R402): where a register is stored, its reset value, and the
offsets of the registers by name. -/
namespace Sys2Proof.Machine

/-- The first offset of a block of R402. -/
def dpBase : Nat := 0x100000
/-- DU. -/
def duBase : Nat := 0x200000
/-- EG. -/
def egBase : Nat := 0x300000
/-- VX. -/
def vxBase : Nat := 0x400000
/-- TW. -/
def twBase : Nat := 0x500000
/-- DB. -/
def dbBase : Nat := 0x600000
/-- PF. -/
def pfBase : Nat := 0x700000
/-- PM. -/
def pmBase : Nat := 0x800000
/-- SE. -/
def seBase : Nat := 0x900000
/-- IC. -/
def icBase : Nat := 0xA00000
/-- SC. -/
def scBase : Nat := 0xB00000
/-- WD. -/
def wdBase : Nat := 0xC00000

/-- A hub register: both windows show it (R402, R377, R409; TW_FRHEAD and TW_FRTAIL by R340, log 5). -/
def hubReg (off : Nat) : Bool :=
  (egBase ≤ off && off < vxBase) || (pmBase ≤ off && off < icBase) || (0x4000 ≤ off && off < 0x5000) ||
  (twBase + 0x10 ≤ off && off < twBase + 0x20) || (twBase + 0x1C0 ≤ off && off < twBase + 0x240)

/-- The key of a register in `State.mmio`. -/
def mmioKey (die off : Nat) : Nat := if hubReg off then off else die * 2 ^ 24 + off

/-- The reset values that are not 0 (R350, R364, R390, R392, R412, R417). -/
def regReset (off : Nat) : Word :=
  if dpBase + 0x100 ≤ off && off < dpBase + 0x140 then 16
  else if dpBase + 0x140 ≤ off && off < dpBase + 0x180 then 800
  else if dpBase + 0x180 ≤ off && off < dpBase + 0x1C0 then 4096
  else if off == vxBase + 0x10 then 64
  else if off == pfBase + 0x04 then 65536
  else if off == pfBase + 0x08 then 1
  else if off == pfBase + 0x14 then 4
  else if off == scBase then 60
  else if off == wdBase then 0x800007D0
  else if off == pmBase + 0x08 then 780
  else 0

/-- The reset value of the register with a key. -/
def keyReset (k : Nat) : Word := regReset (k % 2 ^ 24)

/-- The stored value of a register. -/
def State.reg (s : State) (die off : Nat) : Word := Cells.get (regReset off) s.mmio (mmioKey die off)
/-- The same as a number. -/
def State.regN (s : State) (die off : Nat) : Nat := (s.reg die off).toNat
/-- The state with a register stored. -/
def State.setReg (s : State) (die off : Nat) (v : Word) : State :=
  { s with mmio := Cells.set (regReset off) s.mmio (mmioKey die off) v }
/-- The same with a number, modulo 2^32. -/
def State.setRegN (s : State) (die off v : Nat) : State := s.setReg die off (word v)

/-- Register `r` of queue `q` (R352). -/
def pkQ (q r : Nat) : Nat := 0x1000 + 0x40 * q + r
/-- PK_SEM(p, s) (R377). -/
def pkSem (p n : Nat) : Nat := 0x4000 + 0x100 * p + 4 * n
/-- TW_PROT_BASE (R350). -/
def twProtBase : Nat := twBase
/-- TW_PROT_LIMIT. -/
def twProtLimit : Nat := twBase + 4
/-- TW_PDADDR(p), low. -/
def twPdLo (p : Nat) : Nat := twBase + 0x100 + 8 * p
/-- TW_PDADDR(p), high. -/
def twPdHi (p : Nat) : Nat := twBase + 0x104 + 8 * p
/-- TW_PDSTATUS(p). -/
def twPdStatus (p : Nat) : Nat := twBase + 0x180 + 4 * p
/-- TW_FRHEAD(p). -/
def twFrHead (p : Nat) : Nat := twBase + 0x1C0 + 4 * p
/-- TW_FRTAIL(p). -/
def twFrTail (p : Nat) : Nat := twBase + 0x200 + 4 * p
/-- DP_WEIGHT(p) (R364). -/
def dpWeight (p : Nat) : Nat := dpBase + 0x100 + 4 * p
/-- DP_MARGIN(p). -/
def dpMargin (p : Nat) : Nat := dpBase + 0x140 + 4 * p
/-- DP_POOLCAP(p). -/
def dpPoolCap (p : Nat) : Nat := dpBase + 0x180 + 4 * p
/-- DP_POOLUSED(p). -/
def dpPoolUsed (p : Nat) : Nat := dpBase + 0x1C0 + 4 * p
/-- Word `r` of coalescing unit `q` (R379). -/
def icQ (q r : Nat) : Nat := icBase + 0x100 + 0x10 * q + r
/-- Word `r` of the fault interrupt of partition `p` (R379). -/
def icF (p r : Nat) : Nat := icBase + 0x400 + 0x10 * p + r
/-- Mailbox word `n` (R380). -/
def mbox (n : Nat) : Nat := dbBase + 4 * n
/-- DB_ENABLE (R416). -/
def dbEnable : Nat := dbBase + 0x40
/-- DB_BPPC(p, k) (R384). -/
def dbBpPc (p k : Nat) : Nat := dbBase + 0x100 + 0x40 * p + 8 * k
/-- DB_BPCTL(p, k). -/
def dbBpCtl (p k : Nat) : Nat := dbBase + 0x104 + 0x40 * p + 8 * k
/-- DB_WPADDR(c, k) (R385). -/
def dbWpAddr (c k : Nat) : Nat := dbBase + 0x1000 + 0x20 * c + 8 * k
/-- DB_WPCTL(c, k). -/
def dbWpCtl (c k : Nat) : Nat := dbBase + 0x1004 + 0x20 * c + 8 * k
/-- Word `r` of allowlist slot `n` (R407). -/
def egSlot (n r : Nat) : Nat := egBase + 0x1000 + 0x10 * n + r
/-- EG_LOCK. -/
def egLock : Nat := egBase + 0x800

/-- The key of a byte of a core's store. -/
def coreKey (die core off : Nat) : Nat := die * 2 ^ 28 + core * 2 ^ 21 + off
/-- The key of a byte of a column bank: the form of a kind-1 leaf (R332). -/
def bankKey (stack col off : Nat) : Nat := stack * 2 ^ 26 + col * 2 ^ 22 + off

/-! ### What stays with each stack -/

/-- The units of a stack. -/
def State.die (s : State) (d : Nat) : Die := if d = 0 then s.die0 else s.die1
/-- The state with the units of a stack replaced. -/
def State.setDie (s : State) (d : Nat) (x : Die) : State := if d = 0 then { s with die0 := x } else { s with die1 := x }

/-- A memory of the module. -/
def State.mem (s : State) : Space → Mem
  | .scene => s.scene
  | .core => s.core
  | .bank => s.bank
  | .sample => s.sample
  | .uniform | .tile | .stream => []
/-- The state with a memory replaced. -/
def State.setMem (s : State) (sp : Space) (m : Mem) : State :=
  match sp with
  | .scene => { s with scene := m }
  | .core => { s with core := m }
  | .bank => { s with bank := m }
  | .sample => { s with sample := m }
  | .uniform | .tile | .stream => s
/-- Bytes of a memory. -/
def State.readMem (s : State) (sp : Space) (a n : Nat) : List Byte := Mem.read (s.mem sp) a n
/-- A store to a memory. A store of all eight bytes of a poisoned word gives it valid checks again (log 6). -/
def State.writeMem (s : State) (sp : Space) (a : Nat) (bs : List Byte) : State :=
  { s.setMem sp (Mem.write (s.mem sp) a bs) with
    poison := s.poison.filter fun p => !(p.1 == sp && decide (a ≤ p.2) && decide (p.2 + 8 ≤ a + bs.length)) }
/-- A run of a memory is zeroed, and its words get valid checks again. -/
def State.clearMem (s : State) (sp : Space) (a n : Nat) : State :=
  { s.setMem sp (Mem.clear (s.mem sp) a n) with
    poison := s.poison.filter fun p => !(p.1 == sp && decide (a ≤ p.2) && decide (p.2 + 8 ≤ a + n)) }
/-- Bytes of a group's own store have been written: words written whole get valid checks again. -/
def State.heal (s : State) (sp : Space) (a n : Nat) : State :=
  { s with poison := s.poison.filter fun p => !(p.1 == sp && decide (a ≤ p.2) && decide (p.2 + 8 ≤ a + n)) }
/-- A run of bytes belongs to a partition from now on (R348). -/
def State.noteOwner (s : State) (sp : Space) (a n part : Nat) : State :=
  { s with owners := { space := sp, base := a, size := n, part := part } ::
      s.owners.filter fun o => !(o.space == sp && decide (a ≤ o.base) && decide (o.base + o.size ≤ a + n)) }
/-- The key of a byte of what a group holds in a store of its core: 1 MiB for each group. -/
def groupKey (u off : Nat) : Nat := 2 ^ 20 * u + off
/-- A little-endian number of scene memory. -/
def State.sceneNat (s : State) (a n : Nat) : Nat := leNat (s.readMem .scene a n)

/-- A byte of the run reads as uncorrectable (R411, R413): SEC-DED covers 64 bits (R410). -/
def State.poisoned (s : State) (sp : Space) (a n : Nat) : Bool :=
  s.poison.any fun p => p.1 == sp && decide (p.2 < a + n) && decide (a < p.2 + 8)

/-- The session time that the clocks ask for (R403). -/
def State.wantedTime (s : State) : Nat :=
  let p := if s.regN 0 egBase % 2 = 0 then s.port0 else s.port1
  (p.ptp - (s.regN 0 (egBase + 8) + s.regN 0 (egBase + 12) * 2 ^ 32)) / 125

/-- The protected range of R350 in bytes, end exclusive. -/
def State.protRange (s : State) (d : Nat) : Nat × Nat :=
  (65536 * s.regN d twProtBase, 65536 * s.regN d twProtLimit)
/-- The bytes lie wholly inside the protected range, and in scene memory (R1; log 106). -/
def State.inProt (s : State) (d a n : Nat) : Bool :=
  let r := s.protRange d
  decide (r.1 ≤ a) && decide (a + n ≤ r.2) && decide (a + n ≤ Config.sceneBytes)
/-- Some byte lies in the protected range. -/
def State.meetsProt (s : State) (d a n : Nat) : Bool :=
  let r := s.protRange d
  decide (a < r.2) && decide (r.1 < a + n) && decide (r.1 < r.2)

end Sys2Proof.Machine
end

