-- ==== Sys2Proof/Machine/Translate.lean ====
section
/-! DEFINITION. Page tables, the walk and its bounds (R331 to R333), the TLBs (R335), extent runs (R337). -/
namespace Sys2Proof.Machine

/-- The outcome of a walk. -/
inductive WalkResult where
  /-- a leaf: its entry, the virtual base and the size of its page -/
  | leaf (pte base size : Nat)
  /-- a record condition: 0x20, 0x21 or 0x22 -/
  | bad (code : Nat)
  /-- an entry reads as uncorrectable (R411) -/
  | unread
  deriving DecidableEq, Repr, Inhabited

/-- The type of an entry (R332). -/
def pteType (e : Nat) : Nat := bits e 1 0
/-- Physical address bits of an entry. -/
def pteFrame (e : Nat) : Nat := bits e 51 12 * 4096
/-- The memory kind. -/
def pteKind (e : Nat) : Nat := bits e 57 56
/-- Readable. -/
def pteR (e : Nat) : Bool := bitAt e 58
/-- Writable. -/
def pteW (e : Nat) : Bool := bitAt e 59
/-- Executable. -/
def pteX (e : Nat) : Bool := bitAt e 60
/-- Shared-deterministic. -/
def pteSd (e : Nat) : Bool := bitAt e 61
/-- The size64 bit. -/
def pteSize64 (e : Nat) : Bool := bitAt e 52

/-- The page size of a leaf of a level. -/
def leafSize (lvl : Nat) (s64 : Bool) : Nat :=
  match lvl with
  | 0 => if s64 then 65536 else 4096
  | 1 => 2 ^ 21
  | _ => 2 ^ 30

/-- An entry, of a type other than 0, that R332 calls malformed. `first` is the first index of a group at level 0. -/
def pteMalformed (lvl : Nat) (first : Bool) (e : Nat) : Bool :=
  let t := pteType e
  let leaf := t == 2
  t == 3 || (leaf && lvl == 3) || (t == 1 && lvl == 0) || bits e 63 62 != 0 || bits e 55 53 != 0 ||
  (pteSize64 e && !(leaf && lvl == 0 && first)) ||
  (leaf && pteFrame e % leafSize lvl (pteSize64 e) != 0) ||
  (leaf && pteKind e == 1 && (65536 < leafSize lvl (pteSize64 e) || bits e 51 27 != 0))

/-- The share of a partition on a stack (R346). -/
def Part.share (p : Part) (stack : Nat) : Share := if stack = 0 then p.a else p.b

/-- The bounds of R333 for a leaf. A kind-0 page that ends beyond the 192 GiB of R1 lies in no quota, and a kind-1 page is judged by
the share of its stack whatever that share's enable bit; the spec says neither (log 106, 103). -/
def leafInBounds (s : State) (p : Part) (e size : Nat) : Bool :=
  let f := pteFrame e
  if pteKind e == 0 then
    decide (65536 * p.sqBase ≤ f) && decide (f + size ≤ 65536 * p.sqLimit) &&
    decide (f + size ≤ Config.sceneBytes) && !s.meetsProt p.die f size
  else if pteKind e == 1 then
    let sh := p.share (bits e 26 26)
    let off := bits e 21 12
    let col := bits e 25 22
    decide (sh.col0 ≤ col) && decide (col < sh.col0 + sh.cols) && decide (sh.cbLo ≤ off) &&
    decide (off + size / 4096 ≤ sh.cbHi)
  else true

/-- What an entry gives at a level: a leaf, a table to go on with, or a record. -/
def entryResult (s : State) (p : Part) (lvl : Nat) (first : Bool) (va e : Nat) : WalkResult ⊕ Nat :=
  if pteType e == 0 then .inl (.bad 0x20)
  else if pteMalformed lvl first e then .inl (.bad 0x21)
  else if pteType e == 1 then
    if s.inProt p.die (pteFrame e) 4096 then .inr (pteFrame e) else .inl (.bad 0x22)
  else
    let size := leafSize lvl (pteSize64 e)
    if leafInBounds s p e size then .inl (.leaf e (va / size * size) size) else .inl (.bad 0x22)

/-- The walk from a level down (R331). Uncorrectable entries are not used (R411). -/
def walkFrom (s : State) (p : Part) (va : Nat) : Nat → Nat → WalkResult
  | table, 0 =>
    let i := bits va 20 12
    let a0 := table + 8 * (i / 16 * 16)
    let e0 := s.sceneNat a0 8
    if s.poisoned .scene a0 8 then .unread
    else if pteType e0 == 2 && pteSize64 e0 then
      match entryResult s p 0 true va e0 with
      | .inl r => r
      | .inr _ => .bad 0x21
    else if s.poisoned .scene (table + 8 * i) 8 then .unread
    else
      match entryResult s p 0 (i % 16 == 0) va (s.sceneNat (table + 8 * i) 8) with
      | .inl r => r
      | .inr _ => .bad 0x21
  | table, lvl + 1 =>
    let i := va / 2 ^ (21 + 9 * lvl) % 512
    if s.poisoned .scene (table + 8 * i) 8 then .unread
    else
      match entryResult s p (lvl + 1) false va (s.sceneNat (table + 8 * i) 8) with
      | .inl r => r
      | .inr t => walkFrom s p va t lvl

/-- The bytes that an entry of a level covers (R331). -/
def levelBytes (lvl : Nat) : Nat := 2 ^ (12 + 9 * lvl)

/-- The upper-level entry covers an address. -/
def Upper.covers (u : Upper) (va : Nat) : Bool := decide (u.va ≤ va) && decide (va < u.va + levelBytes u.lvl)

/-- Where a walk starts: at the table that the lowest cached upper-level entry of the address names, else at the root (R331, R335). -/
def State.walkStart (s : State) (p : Part) (va : Nat) : Nat × Nat :=
  let at_ := fun (n : Nat) => s.upper.find? fun u => u.die == p.die && u.part == p.num && u.lvl == n && u.covers va
  match at_ 1, at_ 2, at_ 3 with
  | some u, _, _ => (u.table, 0)
  | none, some u, _ => (u.table, 1)
  | none, none, some u => (u.table, 2)
  | none, none, none => (p.root, 3)

/-- The walk of R331 with the checks of R332 and R333. -/
def walk (s : State) (p : Part) (va : Nat) : WalkResult := walkFrom s p va (s.walkStart p va).1 (s.walkStart p va).2

/-- The upper-level entries that a walk from a level down reads. -/
def pointersFrom (s : State) (p : Part) (va : Nat) : Nat → Nat → List Upper
  | _, 0 => []
  | table, lvl + 1 =>
    let a := table + 8 * (va / 2 ^ (21 + 9 * lvl) % 512)
    if s.poisoned .scene a 8 then []
    else
      match entryResult s p (lvl + 1) false va (s.sceneNat a 8) with
      | .inl _ => []
      | .inr t =>
        { die := p.die, part := p.num, lvl := lvl + 1, va := va / levelBytes (lvl + 1) * levelBytes (lvl + 1), table := t } ::
          pointersFrom s p va t lvl

/-- The walker keeps the upper-level entries of a walk. Its room is not bounded, a choice of the model (log 15). -/
def State.fillUpper (s : State) (p : Part) (va : Nat) : State :=
  { s with upper := s.upper ++ pointersFrom s p va (s.walkStart p va).1 (s.walkStart p va).2 }

/-- The record condition of a walk that gives no leaf. An entry that cannot be read is malformed for a group, a copy request and the
frozen extents, a choice of the model (log 104); a store of the dispatcher and a read of the packet core are refused (R360). -/
def WalkResult.record? : WalkResult → Option Nat
  | .leaf _ _ _ => none
  | .bad c => some c
  | .unread => some 0x21

/-- The place of a byte that a leaf maps (R332). The kinds 2 and 3 have none. -/
def leafLoc (pte base va : Nat) : Loc :=
  if pteKind pte == 1 then .mem .bank (bits (pteFrame pte) 26 0 + (va - base))
  else .mem .scene (pteFrame pte + (va - base))

/-- The stack of the bank of a leaf of kind 1. -/
def pteStack (pte : Nat) : Nat := bits pte 26 26

/-- A valid partition of a stack. -/
def State.part? (s : State) (die num : Nat) : Option Part := s.parts.find? fun p => p.die == die && p.num == num

/-- An access of the dispatcher, the packet core or an application core: translated by a walk of its own. -/
def State.walkVa (s : State) (die part va : Nat) : WalkResult :=
  match s.part? die part with
  | some p => walk s p va
  | none => .bad 0x20

/-- Bytes read through a walk of each page, at most `n`. The page that fails ends the read. -/
inductive ReadResult where
  | ok (bytes : List Byte)
  /-- a record condition at a page -/
  | record (code va : Nat)
  /-- a refusal by a permission, a memory kind or an uncorrectable error -/
  | refused (c : Code) (va : Nat)
  deriving DecidableEq, Repr, Inhabited

/-- The place that an address reaches for a read or a write, as it is translated by `look`. -/
def reachBy (look : Nat → WalkResult) (va : Nat) (write : Bool) : Loc ⊕ ReadResult :=
  match look va with
  | .bad c => .inr (.record c va)
  | .unread => .inr (.refused .uncorrectable va)
  | .leaf pte base _ =>
    if 1 < pteKind pte || !(if write then pteW pte else pteR pte) then .inr (.refused .accessViolation va)
    else .inl (leafLoc pte base va)

/-- The place that an address reaches for a read or a write, by a walk of its own. -/
def State.reach (s : State) (die part va : Nat) (write : Bool) : Loc ⊕ ReadResult := reachBy (s.walkVa die part) va write

/-- Bytes from `va`, each 64-byte line translated by `look`. -/
def State.readVa (s : State) (look : Nat → WalkResult) : Nat → Nat → Nat → ReadResult
  | _, _, 0 => .ok []
  | va, n, fuel + 1 =>
    if n = 0 then .ok []
    else
      let k := min n (64 - va % 64)
      match reachBy look va false with
      | .inr r => r
      | .inl (.mem sp a) =>
        if s.poisoned sp a k then .refused .uncorrectable va
        else
          match s.readVa look (va + k) (n - k) fuel with
          | .ok t => .ok (s.readMem sp a k ++ t)
          | r => r
      | .inl _ => .refused .accessViolation va

/-- `n` bytes from `va`, by walks of their own. -/
def State.readBytes (s : State) (die part va n : Nat) : ReadResult := s.readVa (s.walkVa die part) va n (n / 64 + 2)

/-! ### TLBs -/

/-- Entries of a unit of a class (R335). -/
def TlbClass.size : TlbClass → Nat
  | .loadStore => 64
  | .request => 32
  | .fetch => 16
  | .base => 32

/-- Two cached leaves belong to one TLB. -/
def Tlb.sameUnit (a b : Tlb) : Bool := a.die == b.die && a.cls == b.cls && a.unit == b.unit

/-- The entry translates the address for the partition. -/
def Tlb.hits (t : Tlb) (die : Nat) (cls : TlbClass) (unit part va : Nat) : Bool :=
  t.die == die && t.cls == cls && t.unit == unit && t.part == part && decide (t.va ≤ va) && decide (va < t.va + t.size)

/-- The list with the first entry that satisfies `p` moved to the end: the most recently used. -/
def touch (p : Tlb → Bool) (l : List Tlb) : List Tlb :=
  match l.find? p with
  | some t => l.erase t ++ [t]
  | none => l

/-- The list with one entry of the unit removed when the unit is full: the first that is not pinned (R335). -/
def evict (t : Tlb) (l : List Tlb) : List Tlb :=
  if (l.filter t.sameUnit).length < t.cls.size then l
  else
    match l.find? fun x => t.sameUnit x && !x.pinned with
    | some x => l.erase x
    | none =>
      match l.find? t.sameUnit with
      | some x => l.erase x
      | none => l

/-- At most 24 entries of a unit are pinned: a new pin replaces the least recently used pinned entry (R335). -/
def unpin (t : Tlb) (l : List Tlb) : List Tlb :=
  if t.pinned && 24 ≤ (l.filter fun x => t.sameUnit x && x.pinned).length then
    match l.find? fun x => t.sameUnit x && x.pinned with
    | some x => l.erase x
    | none => l
  else l

/-- A leaf cached for a unit. -/
def fillTlb (l : List Tlb) (t : Tlb) : List Tlb := evict t (unpin t l) ++ [t]

/-- The use of an entry: every class but the FIFO one reorders (R335). -/
def State.touchTlb (s : State) (die : Nat) (cls : TlbClass) (unit part va : Nat) : State :=
  if cls = .request then s else { s with tlbs := touch (fun t => t.hits die cls unit part va) s.tlbs }

/-- An address in each page that a range meets, in ascending order. -/
def pagesOf (va n : Nat) : List Nat :=
  (List.range ((va % 4096 + n + 4095) / 4096)).map fun i => if i = 0 then va else va / 4096 * 4096 + 4096 * i

/-- What a translation finds. -/
inductive Look where
  | hit (pte base : Nat)
  /-- an unanswered record of the page -/
  | fault
  /-- no translation yet -/
  | miss
  deriving DecidableEq, Repr, Inhabited

/-- The run of an extent table that holds the byte (R337). -/
def runOf (rs : List Run) (va : Nat) : Option Run := rs.find? fun r => decide (r.va ≤ va) && decide (va < r.va + r.len)

/-- The unanswered record of a page on a stack (R342). -/
def State.unanswered? (s : State) (die part page : Nat) : Option Unanswered :=
  s.unanswered.find? fun u => u.die == die && u.part == part && u.page == page

/-- An access to a page of a stack would join an unanswered record: there is one, and the page still faults (R342, R343). -/
def State.stillAbsent (s : State) (die part va : Nat) : Bool :=
  (s.unanswered? die part (va / 4096)).isSome &&
    (s.walkVa die part va).record?.isSome

/-- The translation of an address by the extent runs, then the TLB of a unit, then the records: a page whose record is
unanswered but that would translate by now is walked as any other. -/
def State.look (s : State) (die : Nat) (cls : TlbClass) (unit part : Nat) (runs : List Run) (va : Nat) : Look :=
  match runOf runs va with
  | some r => .hit r.pte.toNat r.va
  | none =>
    match s.tlbs.find? fun t => t.hits die cls unit part va with
    | some t => .hit t.pte.toNat t.va
    | none => if s.stillAbsent die part va then .fault else .miss

/-- A miss enters the walker queue of its stack or joins a walk there (R336). None where the queue is full. -/
def State.enqueueWalk (s : State) (die part va : Nat) (a : Asker) : Option State :=
  let d := s.die die
  let page := va / 4096
  if d.walks.any fun w => w.part == part && w.page == page then
    some (s.setDie die { d with walks := d.walks.map fun w =>
      if w.part == part && w.page == page then
        (if w.askers.contains a then w else { w with askers := w.askers ++ [a] }) else w })
  else if 32 ≤ d.walks.length then none
  else some (s.setDie die { d with walks := d.walks ++ [{ part := part, page := page, askers := [a] }] })

end Sys2Proof.Machine
end

