-- ==== Sys2Proof/Machine/Lookup.lean ====
section
/-! DEFINITION. Looking up and replacing groups, blocks and grids, and what they say of one another. -/
namespace Sys2Proof.Machine

/-! ### Lookup -/

/-- The group with an identity. -/
def State.group? (s : State) (u : Nat) : Option Group := s.groups.find? fun g => g.uid == u
/-- The state with a group replaced. -/
def State.setGroup (s : State) (g : Group) : State :=
  { s with groups := s.groups.map fun x => if x.uid == g.uid then g else x }
/-- A change of one group, if it is there. -/
def State.modGroup (s : State) (u : Nat) (f : Group → Group) : State :=
  { s with groups := s.groups.map fun x => if x.uid == u then f x else x }
/-- The block with an identity. -/
def State.block? (s : State) (u : Nat) : Option Block := s.blocks.find? fun b => b.uid == u
/-- A change of one block. -/
def State.modBlock (s : State) (u : Nat) (f : Block → Block) : State :=
  { s with blocks := s.blocks.map fun x => if x.uid == u then f x else x }
/-- The grid with an identity. -/
def State.grid? (s : State) (u : Nat) : Option Grid := s.grids.find? fun k => k.uid == u
/-- A change of one grid. -/
def State.modGrid (s : State) (u : Nat) (f : Grid → Grid) : State :=
  { s with grids := s.grids.map fun x => if x.uid == u then f x else x }
/-- The block of a group. -/
def State.blockOf (s : State) (g : Group) : Block := (s.block? g.block).getD {}
/-- The grid of a group. -/
def State.gridOf (s : State) (g : Group) : Grid := (s.grid? (s.blockOf g).grid).getD {}
/-- The variant in which a group's block runs. -/
def State.variantOf (s : State) (g : Group) : Variant :=
  ((s.gridOf g).variants[(s.blockOf g).variant]?).getD {}
/-- The partition of a group. -/
def State.partOf (s : State) (g : Group) : Nat := (s.gridOf g).part
/-- The groups of a block that are resident. -/
def State.groupsOf (s : State) (b : Nat) : List Group := s.groups.filter fun g => g.block == b
/-- Groups of a block of the grid. -/
def Grid.groups (k : Grid) : Nat := k.threads / 32
/-- Blocks of the grid. -/
def Grid.blocks (k : Grid) : Nat := k.x * k.y * k.z
/-- The logical identifier of a group (R37). -/
def State.logicalId (s : State) (g : Group) : Nat := 192 * (s.blockOf g).index + g.index
/-- The commit token of a partition on a stack. -/
def State.token? (s : State) (die part : Nat) : Option Token := s.tokens.find? fun t => t.die == die && t.part == part
/-- The group holds the commit token (R38). -/
def State.holdsToken (s : State) (g : Group) : Bool :=
  match s.token? g.die (s.partOf g) with
  | some t => t.grid == (s.blockOf g).grid && t.at_ == s.logicalId g
  | none => false
/-- The execution state of the mode the group is in. -/
def Group.ctx (g : Group) : Ctx := if g.mode = .kernel then g.k else g.h
/-- The group with the execution state of its mode replaced. -/
def Group.setCtx (g : Group) (c : Ctx) : Group := if g.mode = .kernel then { g with k := c } else { g with h := c }
/-- The group is in handler mode. -/
def Group.inHandler (g : Group) : Bool := g.mode != .kernel
/-- 0 in kernel mode, 1 and 2 at the handler depths. -/
def Mode.level : Mode → Nat
  | .kernel => 0
  | .handler => 1
  | .nested => 2
/-- The path of a slot. -/
def Ctx.path (c : Ctx) (slot : Bool) : Path := if slot then c.p1 else c.p0
/-- The state with the path of a slot replaced. -/
def Ctx.setPath (c : Ctx) (slot : Bool) (p : Path) : Ctx := if slot then { c with p1 := p } else { c with p0 := p }
/-- The divergence stack of a slot, top first. -/
def Ctx.stack (c : Ctx) (slot : Bool) : List Entry := if slot then c.s1 else c.s0
/-- The state with the divergence stack of a slot replaced. -/
def Ctx.setStack (c : Ctx) (slot : Bool) (e : List Entry) : Ctx := if slot then { c with s1 := e } else { c with s0 := e }
/-- The group identifier of the debug block (R381). -/
def Group.gid (g : Group) : Nat := 64 * g.core + g.rslot
/-- The key of the first byte of a group's window in its core's store (R28). -/
def Group.windowKey (g : Group) : Nat := coreKey g.die g.core (g.quarter * 393216 + 128 * g.vbase)
/-- A fresh identity. -/
def State.takeFresh (s : State) : Nat × State := (s.fresh, { s with fresh := s.fresh + 1 })
/-- A free value (log 4). -/
def State.takeFree (s : State) : Word × State := (Config.freeWord s.free, { s with free := s.free + 1 })
/-- A row and column of the mesh. -/
def coreRow (c : Nat) : Nat := c / 16
/-- The column of a core. -/
def coreCol (c : Nat) : Nat := c % 16

end Sys2Proof.Machine
end

