-- ==== Sys2Proof/Machine/Landing.lean ====
section
/-! DEFINITION. The scratchpad shares of blocks (R28, R48), the records of copy requests (R62 to R64), their landing targets
(R60, R61) and how a request ends (R65, R170, R171). -/
namespace Sys2Proof.Machine

/-! ### Scratchpad shares -/

/-- The span position of a group (R15). -/
def Group.spanPos (g : Group) : Nat := g.index / 64
/-- Every group of the block has exited: its windows are gone (R31, R171). -/
def Block.gone (b : Block) : Bool := b.st == .finished || b.st == .retired
/-- The block holds its scratchpad: a retired one only under the hold option (R16). -/
def Block.holds (b : Block) : Bool :=
  match b.st with
  | .saved => false
  | .aborted => false
  | .finished => !b.shares.isEmpty
  | .retired => !b.shares.isEmpty
  | _ => true
/-- The scratchpad share of a span position: offset and bytes. -/
def Block.share (b : Block) (pos : Nat) : Nat × Nat := b.shares.getD pos (0, 0)
/-- The whole scratchpad of a block in bytes. -/
def Block.scratch (b : Block) : Nat := (b.shares.map (·.2)).sum
/-- The byte of a core's store that holds byte `o` of the concatenated shares from a span position on (R48). -/
def shareByte (die : Nat) : List (Nat × Nat) → Nat → Nat → Option Nat
  | [], _, _ => none
  | (off, n) :: t, core, o => if o < n then some (coreKey die core (off + o)) else shareByte die t (core + 1) (o - n)

/-- The share of the group on its core: offset in the core store and bytes (R28, R54), none once its block has retired. -/
def State.ownShare (s : State) (g : Group) : Nat × Nat :=
  if (s.blockOf g).gone then (0, 0) else (s.blockOf g).share g.spanPos

/-- The key of the byte at an offset of the own share. -/
def State.ownKey (s : State) (g : Group) (off : Nat) : Nat := coreKey g.die g.core ((s.ownShare g).1 + off)

/-- A uniform register of a level is written by an operation in flight. -/
def Group.landU (g : Group) (level r : Nat) (v : Word) : Group :=
  if r = 0 then g
  else if level = 0 then { g with ureg := Cells.set 0 g.ureg r v } else { g with sureg := Cells.set 0 g.sureg r v }

/-! ### Records -/

/-- A field of a record. -/
def recBits (b : List Byte) (hi lo : Nat) : Nat := bits (leNat b) hi lo

/-- The kind of a record. -/
def recKind (b : List Byte) : Nat := recBits b 255 252
/-- A kind that takes two slots (R63). -/
def twoSlots (k : Nat) : Bool := k == 6 || k == 8

/-- The kind of a request. -/
def Copy.kind (c : Copy) : Nat := recKind c.bytes
/-- Its landing form. -/
def Copy.land (c : Copy) : Nat := recBits c.bytes 251 250
/-- Its landing target. -/
def Copy.target (c : Copy) : Nat := recBits c.bytes 247 224
/-- Its length field. -/
def Copy.length (c : Copy) : Nat := recBits c.bytes 159 128
/-- Its destination address. -/
def Copy.dst (c : Copy) : Nat := recBits c.bytes 111 64
/-- Its tag. -/
def Copy.tag (c : Copy) : Nat := recBits c.bytes 63 48
/-- Its source address. -/
def Copy.src (c : Copy) : Nat := recBits c.bytes 47 0
/-- Its extension record as a number. -/
def Copy.extNat (c : Copy) : Nat := leNat (c.ext.getD [])
/-- Element bytes of a gather. -/
def Copy.elem (c : Copy) : Nat := 2 ^ bits c.extNat 59 56
/-- Index bytes of a gather. -/
def Copy.index (c : Copy) : Nat := 2 ^ bits c.extNat 63 60
/-- Rows of a region. -/
def Copy.rows (c : Copy) : Nat := bits c.extNat 143 128
/-- Planes of a region. -/
def Copy.planes (c : Copy) : Nat := bits c.extNat 159 144
/-- Bytes of the destination. -/
def Copy.total (c : Copy) : Nat :=
  if c.kind = 6 then c.length * c.elem else if c.kind = 8 then c.length * c.rows * c.planes else c.length
/-- The slots that a request takes. -/
def Copy.slots (c : Copy) : Nat := 1 + c.ext.isSome.toNat
/-- The stream that the request fills: 0 A, 1 B, 2 M. -/
def Copy.stream (c : Copy) : Option Nat := if 3 ≤ c.kind && c.kind ≤ 5 then some (c.kind - 3) else none

/-- The group for which a request runs, with the translations that the request has; of one that is no longer there, what names
its block and place (R171). -/
def State.copyGroup (s : State) (c : Copy) : Group :=
  { (s.group? c.owner).getD { uid := c.owner, block := c.owner / 192, index := c.owner % 192, die := c.die, core := c.core
                              exited := true } with leaves := c.leaves }

/-- The numbers of R311. -/
def Code.num : Code → Nat
  | .illegalOpcode => 0x01 | .reservedField => 0x02 | .privileged => 0x03 | .misaligned => 0x04
  | .attributeStraddle => 0x05 | .accessViolation => 0x06 | .sliceUnmapped => 0x07 | .matrixCombination => 0x08
  | .feedPendingWrite => 0x09 | .tokenOrder => 0x0A | .launchDepth => 0x0B | .remoteFault => 0x0C
  | .remoteTimeout => 0x0D | .breakpoint => 0x0E | .watchpoint => 0x0F | .singleStep => 0x10 | .software => 0x11
  | .preempt => 0x12 | .uncorrectable => 0x13 | .registerRange => 0x15

/-! ### Landing targets -/

/-- The key of the barrier object of a request, where it lies in the own share (R61, R62). -/
def State.landObject (s : State) (c : Copy) : Option Nat :=
  let g := s.copyGroup c
  let off := 16 * (c.target % 2 ^ 17)
  if off + 16 ≤ (s.ownShare g).2 then some (s.ownKey g off) else none

/-- A count less `n` landed bytes, bit 31 unchanged (R60). -/
def landWord (w : Nat) (n : Nat) : Nat := w / 2 ^ 31 % 2 * 2 ^ 31 + (w % 2 ^ 31 + 2 ^ 31 - n % 2 ^ 31) % 2 ^ 31

/-- `n` bytes have landed on the barrier object at a key: its count falls, and where it reaches zero its generation rises
(R61). -/
def State.landAt (s : State) (a n : Nat) : State :=
  let o := leNat (s.readMem .core a 12)
  let count := o % 2 ^ 31
  let gen := bits o 95 64 + (if 0 < count && count ≤ n then 1 else 0)
  let s1 := s.writeMem .core a (leBytes 4 (landWord (o % 2 ^ 32) n))
  s1.writeMem .core (a + 8) (leBytes 4 gen)

/-- The barrier object refuses a landing: its reserved field is nonzero (R61). -/
def State.objectBad (s : State) (c : Copy) : Bool :=
  c.land == 2 &&
    (match s.landObject c with
     | some a => leNat (s.readMem .core (a + 12) 4) != 0
     | none => false)

/-- Some bytes have landed: the target falls by their number, but an object that refuses the landing stays as it is (R60, R61). -/
def State.landed (s : State) (c : Copy) (n : Nat) : State :=
  if n = 0 || s.objectBad c then s
  else if c.land = 1 then
    s.modGroup c.owner fun g =>
      if g.exited then g else g.landU 0 (c.target % 512) (word (landWord (Cells.get 0 g.ureg (c.target % 512)).toNat n))
  else if c.land = 2 then
    match s.landObject c with
    | none => s
    | some a => s.landAt a n
  else s

/-- A request has stopped: bit 31 of its target is set, and the code of a barrier object's first error kept; an object that refuses the
landing stays as it is (R60, R61). -/
def State.landError (s : State) (c : Copy) (status : Nat) : State :=
  if s.objectBad c then s
  else if c.land = 1 then
    s.modGroup c.owner fun g =>
      if g.exited then g else g.landU 0 (c.target % 512) (Cells.get 0 g.ureg (c.target % 512) ||| 0x80000000)
  else if c.land = 2 then
    match s.landObject c with
    | none => s
    | some a =>
      let o := leNat (s.readMem .core a 12)
      let s1 := if bitAt o 31 then s else s.writeMem .core (a + 4) [BitVec.ofNat 8 status]
      s1.writeMem .core (a + 3) [BitVec.ofNat 8 (o / 2 ^ 24 % 128 + 128)]
  else s

/-! ### Requests come and go -/

/-- A change of one request. -/
def State.modCopy (s : State) (id : Nat) (f : Copy → Copy) : State :=
  { s with copies := s.copies.map fun c => if c.id == id then f c else c }

/-- The request with an identity. -/
def State.copy? (s : State) (id : Nat) : Option Copy := s.copies.find? fun c => c.id == id

/-- A request ends: its status byte, then the last change of its landing target (R65, R171). Bytes of a complete request that would land on
an object which refuses them make its status RESERVED_FIELD (R61). -/
def State.endCopy (s : State) (c : Copy) (status : Nat) (mark : Bool) : State :=
  let status := if status = 0xFF && c.owed ≠ 0 && s.objectBad c then Code.reservedField.num else status
  let g := s.copyGroup c
  let s1 := if c.slotVa + 32 ≤ (s.ownShare g).2 then s.writeMem .core (s.ownKey g (c.slotVa + 27)) [BitVec.ofNat 8 status] else s
  let s2 := s1.landed c c.owed
  let s3 := if mark && status ≠ 0xFF then s2.landError c status else s2
  { s3 with copies := s3.copies.filter fun x => x.id != c.id }

end Sys2Proof.Machine
end

