-- ==== Sys2Proof/Machine/Ops.lean ====
section
/-! DEFINITION. The shared operations of the machine: fault records (R340 to R343), completion and interrupts (R360, R378, R379), termination of a queue context (R361), taking
a trap (R307 to R312) and returning from one (R315), event records (R383). -/
namespace Sys2Proof.Machine

/-! ### Fault records -/

/-- The words of a record (R341), the sequence number left 0. -/
def recordWords (die code : Nat) (a : Asker) (info : Nat) (aborted : Bool) (stime : Nat) : List Word :=
  [word (code + die * 2 ^ 8 + a.core * 2 ^ 9 + a.index * 2 ^ 16 + aborted.toNat * 2 ^ 25 + a.op * 2 ^ 26 +
      a.agent * 2 ^ 28),
   a.pc, a.mask, word (a.va % 2 ^ 16 * 2 ^ 16), word (a.va / 2 ^ 16), word info, word stime, word (stime / 2 ^ 32)]

/-- The bytes of words, in order. -/
def wordBytes (ws : List Word) : List Byte := ws.flatMap fun w => leBytes 4 w.toNat

/-- An MSI (R379). -/
def State.msi (s : State) (addr data : Nat) : State := { s with out := s.out ++ [.msi addr (word data)] }

/-- The fault interrupt of a partition (R340, R379). -/
def State.faultInterrupt (s : State) (die part : Nat) : State :=
  if (s.reg die (icF part 0xC)).getLsbD 31 then
    s.msi (s.regN die (icF part 0) + s.regN die (icF part 4) * 2 ^ 32) (s.regN die (icF part 8))
  else s

/-- The ring of a partition: its base and the log of its size. One that is valid on no stack has none. -/
def State.ring (s : State) (part : Nat) : Option (Nat × Nat) :=
  (s.parts.find? fun p => p.num == part).map fun p => (p.ring, p.ringLog)

/-- The ring has no slot (R340): it is full, or the partition is valid no more, and its record is held as by a full ring, a choice of
the model (log 110). -/
def State.ringFull (s : State) (part : Nat) : Bool :=
  match s.ring part with
  | some r => (s.regN 0 (twFrHead part) + 2 ^ 17 - s.regN 0 (twFrTail part)) % 2 ^ 17 == 2 ^ r.2
  | none => true

/-- The address of a slot of a partition's ring. -/
def State.ringSlot (s : State) (part i : Nat) : Option Nat := (s.ring part).map fun r => r.1 + 32 * (i % 2 ^ r.2)

/-- A record is written to the ring: the words get their position, the head advances, the interrupt is raised. -/
def State.putRecord (s : State) (die part : Nat) (ws : List Word) : Nat × State :=
  let head := s.regN 0 (twFrHead part)
  let seq := head % 2 ^ 16
  let ws' := ws.modify 3 fun w => w ||| word seq
  match s.ringSlot part head with
  | none => (seq, s)
  | some a =>
    (seq, ((s.writeMem .scene a (wordBytes ws')).setRegN 0 (twFrHead part) ((head + 1) % 2 ^ 17)).faultInterrupt die part)

/-- A record that nothing answers: written, or held until the ring has a slot. -/
def State.record (s : State) (die part code : Nat) (a : Asker) (info : Nat) : State :=
  let ws := recordWords die code a info false s.stime
  if s.ringFull part || s.heldRecords.any fun h => h.part == part then
    { s with heldRecords := s.heldRecords ++ [{ die := die, part := part, words := ws }] }
  else (s.putRecord die part ws).2

/-- The joined bit of the first word of a record (R341). -/
def joinedWords (ws : List Word) : List Word := ws.modify 0 fun w => w ||| 0x1000000

/-- The supervisor has not consumed the record of a sequence number: it stands between the tail and the head (R340, R341). -/
def State.recordStands (s : State) (part q : Nat) : Bool :=
  let head := s.regN 0 (twFrHead part)
  (head + 2 ^ 17 - 1 - q) % 2 ^ 16 < (head + 2 ^ 17 - s.regN 0 (twFrTail part)) % 2 ^ 17

/-- The joined bit of a record is set (R342), in the ring, or in one that waits for a slot. A record that has been consumed is changed
no more: a choice of the model (log 126). -/
def State.joinRecord (s : State) (u : Unanswered) : State :=
  match u.seq with
  | none => { s with heldRecords := s.heldRecords.map fun h =>
      if h.die == u.die && h.part == u.part && h.page == some u.page then { h with words := joinedWords h.words } else h }
  | some q =>
    match s.ringSlot u.part q with
    | some a => if s.recordStands u.part q then s.writeMem .scene (a + 3) [Mem.byte s.scene (a + 3) ||| 1] else s
    | none => s

/-- A translation record of its own for a page: written, or held until the ring has a slot (R340). -/
def State.ownTranslationRecord (s : State) (die part code : Nat) (a : Asker) (info : Nat) (aborted : Bool) : State :=
  let ws := recordWords die code a info aborted s.stime
  let u : Unanswered := { die := die, part := part, page := a.va / 4096, code := code, queue := a.queue }
  if s.ringFull part || s.heldRecords.any fun h => h.part == part then
    { s with heldRecords := s.heldRecords ++ [{ die := die, part := part, page := some u.page, words := ws }]
             unanswered := s.unanswered ++ [u] }
  else
    let (q, s1) := s.putRecord die part ws
    { s1 with unanswered := s1.unanswered ++ [{ u with seq := some q }] }

/-- A translation record for a page: joined where one is unanswered, one of its own otherwise (R342). -/
def State.translationRecord (s : State) (die part code : Nat) (a : Asker) (info : Nat) (aborted : Bool) : State :=
  match s.unanswered? die part (a.va / 4096) with
  | some u => s.joinRecord u
  | none => s.ownTranslationRecord die part code a info aborted

/-- Held records enter the ring while it has room (R340). -/
def State.drainRecords (s : State) (part : Nat) : Nat → State
  | 0 => s
  | fuel + 1 =>
    if s.ringFull part then s
    else
      match s.heldRecords.find? fun h => h.part == part with
      | none => s
      | some h =>
        let (q, s1) := { s with heldRecords := s.heldRecords.erase h }.putRecord h.die part h.words
        let s2 := match h.page with
          | none => s1
          | some pg => { s1 with unanswered := s1.unanswered.map fun (u : Unanswered) =>
              if u.die == h.die && u.part == part && u.page == pg && u.seq.isNone then { u with seq := some q } else u }
        s2.drainRecords part fuel

/-! ### Completion -/

/-- The queue of a store that no queue context makes: no answer to its record ends a context (R349). -/
def noQueue : Nat := 32

/-- The dispatcher asks (agent 7). -/
def dispatcherAsker (grid queue op va : Nat) : Asker :=
  { agent := 7, op := op, core := 0, index := 0xFF, va := va, grid := grid, queue := queue }

/-- A store of the dispatcher through the partition's page tables: the record where it is refused (R360, R369). A page with
an unanswered record is joined (R342). Bytes that no whole word replaces, in a word that reads as uncorrectable, refuse it.
The truth says whether it was performed. -/
def State.dispatcherStore (s : State) (die part grid queue va : Nat) (bs : List Byte) : Bool × State :=
  match s.reach die part va true with
  | .inl (.mem sp a) =>
    if s.poisoned sp a bs.length then
      (false, s.record die part 0x29 (dispatcherAsker grid queue 1 va) Code.uncorrectable.num)
    else (true, s.writeMem sp a bs)
  | .inl _ => (false, s)
  | .inr (.record c v) => (false, s.translationRecord die part c (dispatcherAsker grid queue 1 v) 0 false)
  | .inr (.refused c v) => (false, s.record die part 0x29 (dispatcherAsker grid queue 1 v) c.num)
  | .inr (.ok _) => (false, s)

/-- The coalescing unit of a queue. -/
def State.coalesceOf (s : State) (die q : Nat) : Coalesce := (((s.die die).coalesce.find? fun c => c.1 == q).map (·.2)).getD {}
/-- The state with the coalescing unit of a queue replaced. -/
def State.setCoalesce (s : State) (die q : Nat) (c : Coalesce) : State :=
  let d := s.die die
  s.setDie die { d with coalesce := (q, c) :: (d.coalesce.filter fun x => x.1 != q) }
/-- The MSI of a queue (R379). -/
def State.queueMsi (s : State) (die q : Nat) : State :=
  s.msi (s.regN die (icQ q 4) + s.regN die (icQ q 8) * 2 ^ 32) (s.regN die (icQ q 0xC))

/-- Clocks of a microsecond: 1.6 GHz, since session time advances one 125 ns unit each 200 clk (R41, R403). -/
def clkPerUs : Nat := 1600

/-- A completion with irq set is counted (R378). -/
def State.countCompletion (s : State) (die q cls : Nat) : State :=
  let ctl := s.reg die (icQ q 0)
  if !ctl.getLsbD 31 then s
  else
    let c := s.coalesceOf die q
    if cls < 2 then (s.queueMsi die q).setCoalesce die q {}
    else
      let n := c.pending + 1
      if max (ctl.toNat % 256) 1 ≤ n then (s.queueMsi die q).setCoalesce die q {}
      else
        let t := if n = 1 then some (s.clk + min (bits ctl.toNat 22 8) 100 * clkPerUs) else c.timer
        s.setCoalesce die q { pending := n, timer := t }

/-- The completion word (R360). -/
def completionWord (stime tag status reason : Nat) : Nat :=
  tag + status * 2 ^ 16 + reason * 2 ^ 24 + stime % 2 ^ 32 * 2 ^ 32

/-- A grid or packet is reported: its completion word, then its interrupt (R360, R378). An address that is not
8-byte aligned writes record 0x29 instead (R359). -/
def State.report (s : State) (die part grid q cls : Nat) (irq : Bool) (va tag status reason : Nat) : State :=
  let s1 :=
    if va = 0 then s
    else if va % 8 ≠ 0 then s.record die part 0x29 (dispatcherAsker grid q 1 va) Code.misaligned.num
    else (s.dispatcherStore die part grid q va (leBytes 8 (completionWord s.stime tag status reason))).2
  if irq then s1.countCompletion die q cls else s1

/-- A grid is reported. The irq bit of a child is ignored (R374). -/
def State.reportGrid (s : State) (k : Grid) (status reason : Nat) : State :=
  s.report k.die k.part k.uid k.queue k.cls (k.irq && k.parent.isNone) k.completion k.tag status reason

/-! ### Termination -/

/-- The state and reason of a queue (R352). -/
def State.setQueueState (s : State) (die q st reason : Nat) : State :=
  s.setRegN die (pkQ q 0x14) (reason * 256 + st)

/-- The completion fields of a packet (R354, R355). -/
def packetTag (b : List Byte) : Nat := leNat ((b.drop 62).take 2)
/-- The completion address of a packet. -/
def packetCompletion (b : List Byte) : Nat := leNat ((b.drop 56).take 6)
/-- The irq bit of a packet. -/
def packetIrq (b : List Byte) : Bool := bitAt (leNat (b.take 2)) 12
/-- The class of a packet for interrupts: packets other than DISPATCH take class 2 (R378). -/
def packetClass (b : List Byte) : Nat := if leNat (b.take 1) = 1 then bits (leNat (b.take 2)) 11 10 else 2

/-- The read index of a queue advances past a packet (R357). -/
def State.advanceQueue (s : State) (die q : Nat) : State :=
  s.setRegN die (pkQ q 0x10) ((s.regN die (pkQ q 0x10) + 1) % 2 ^ 17)

/-- A request is cancelled at once: status 0xFE, and bit 31 of its landing target (R170). -/
def State.cutShort (s : State) (c : Copy) : State := s.endCopy c 0xFE true

/-- A queue context ends (R361). No bytes of its copy requests are in flight between two steps, so those are cut at once
(R65, R170), while the groups still hold what the status bytes and landing targets lie in. -/
def State.terminate (s0 : State) (die q status reason : Nat) : State :=
  let owned := fun (c : Copy) => s0.grids.any fun k =>
    k.die == die && k.queue == q && k.st != .complete &&
      s0.blocks.any fun b => b.grid == k.uid && b.uid == c.owner / 192
  let s := (s0.copies.filter owned).foldl State.cutShort s0
  let ks := s.grids.filter fun k => k.die == die && k.queue == q && k.st != .complete
  let ids := ks.map (·.uid)
  let bids := (s.blocks.filter fun b => ids.contains b.grid).map (·.uid)
  let part := s.regN die (pkQ q 8) % 16
  let s1 : State := { s with
    groups := s.groups.filter fun g => !bids.contains g.block
    blocks := s.blocks.filter fun b => !bids.contains b.uid
    pool := s.pool.filter fun a => !bids.contains a.block
    tokens := s.tokens.filter fun t => !ids.contains t.grid
    reserves := s.reserves.filter fun r => !ids.contains r.grid
    grids := s.grids.map fun k =>
      if ids.contains k.uid then { k with st := .complete, status := status, reason := reason, inPool := false } else k }
  let s2 := ks.foldl (fun t k => t.reportGrid k status reason) s1
  let s3 := s2.record die part 0x28 { agent := 7, index := 0xFF } reason
  let s4 :=
    match (s3.die die).packets.find? fun p => p.queue == q with
    | none => s3
    | some p =>
      let d := s3.die die
      let t := s3.setDie die { d with packets := d.packets.filter fun x => x.queue != q }
      let t := t.report die part 0 q (packetClass p.bytes) (packetIrq p.bytes) (packetCompletion p.bytes)
        (packetTag p.bytes) status reason
      if p.stale then t else t.advanceQueue die q
  s4.setQueueState die q 3 reason

/-- The queue context of a grid ends. -/
def State.terminateGrid (s : State) (k : Grid) (status reason : Nat) : State := s.terminate k.die k.queue status reason

/-! ### Event records -/

/-- The path-table index of R310 and R383. -/
def pathIndex (p : Path) (slot : Bool) : Nat := if p.serial.isSome then 2 else slot.toNat

/-- An event record of a stream of the context enters the FIFO of the stack, or overflow is set (R383). Slot 3 is the scalar
stream. -/
def State.event (s : State) (g : Group) (slot kind : Nat) (info address mask : Word) : State :=
  let c := g.k
  let p := c.path (slot == 1)
  let lane := slot != 3
  let e : Event :=
    { clk := word s.clk, info := info, laneIndex := if lane then p.pc else 0, pc := c.pc
      mask := if kind == 2 then mask else if lane then p.mask else 0
      address := address, gid := g.gid, part := s.partOf g
      slot := if lane then pathIndex p (slot == 1) else 3, kind := kind }
  let d := s.die g.die
  if 16 ≤ d.events.length then
    s.setReg g.die (mbox 8) (s.reg g.die (mbox 8) ||| 0x40000000)
  else s.setDie g.die { d with events := d.events ++ [e] }

/-- The stop of a stream: 0 and 1 the slots, 3 the scalar stream. -/
def Group.stop (g : Group) (slot : Nat) : Stop := if slot = 0 then g.stop0 else if slot = 1 then g.stop1 else g.stopS
/-- The group with the stop of a stream replaced; the kind of a new stop is the group's last. -/
def Group.setStop (g : Group) (slot : Nat) (x : Stop) : Group :=
  let g := if x.stopped && !(g.stop slot).stopped then { g with lastStop := x.kind } else g
  if slot = 0 then { g with stop0 := x } else if slot = 1 then { g with stop1 := x } else { g with stopS := x }

/-- Events of a stop are recorded, in issue order (R385). -/
def State.stopEvents (s : State) (g : Group) (slot : Nat) (es : List (Nat × Nat × Word × Word × Word)) : State :=
  (sortRank (fun e => [e.1]) es).foldl (fun t e => t.event g slot e.2.1 e.2.2.1 e.2.2.2.1 e.2.2.2.2) s

/-- Every stop of a group ends with a kind-5 event, one that waited for its boundary once its own events are recorded (R385,
R387). -/
def State.endStops (s : State) (g : Group) : State :=
  [0, 1, 3].foldl (fun t n =>
    let x := g.stop n
    if x.stopped || x.halt then (t.stopEvents g n x.events).event g n 5 0 0 0 else t)
    (s.modGroup g.uid fun x => { x with stopS := {}, stop0 := {}, stop1 := {} })

/-! ### Fixed-latency writes of a path (R131) -/

/-- The value of lane `l` of vector register `n` in the mode of the group. -/
def Group.vbase32 (n l : Nat) : Nat := 32 * n + l

/-- A vector element of the register file of the mode. -/
def Group.vget (g : Group) (n l : Nat) : Word :=
  Cells.get 0 (if g.mode = .kernel then g.vreg else g.svreg) (Group.vbase32 n l)
/-- The group with a vector element written. -/
def Group.vset (g : Group) (n l : Nat) (v : Word) : Group :=
  if g.mode = .kernel then { g with vreg := Cells.set 0 g.vreg (Group.vbase32 n l) v }
  else { g with svreg := Cells.set 0 g.svreg (Group.vbase32 n l) v }
/-- The group with a vector register written in the lanes of a mask. -/
def Group.vwrite (g : Group) (n : Nat) (mask : Word) (v : Lanes) : Group :=
  (lanesOf mask).foldl (fun g l => g.vset n l (lane v l)) g

/-- The predicates p0 to p6 of a lane. -/
def Ctx.predBits (c : Ctx) (l : Nat) : BitVec 7 := Cells.get 0 c.preds l
/-- A lane predicate; p7 is true (R124). -/
def Ctx.pget (c : Ctx) (n l : Nat) : Bool := if n = 7 then true else (c.predBits l).getLsbD n
/-- The state with a lane predicate written; p7 stays true. -/
def Ctx.pset (c : Ctx) (n l : Nat) (v : Bool) : Ctx :=
  if n = 7 then c
  else
    let b := c.predBits l
    let m := (1#7 <<< n)
    { c with preds := Cells.set 0 c.preds l (if v then b ||| m else b &&& ~~~m) }

/-- One pending write reaches its register. -/
def Group.commit1 (g : Group) (p : Pend) : Group :=
  if p.pred then
    g.setCtx ((lanesOf p.mask).foldl (fun c l => c.pset p.reg l (lane p.vals l != 0)) g.ctx)
  else g.vwrite p.reg p.mask p.vals

/-- A younger write of the same register leaves an older one only its other lanes. -/
def Pend.shadow (p q : Pend) : Pend :=
  if p.pred == q.pred && p.reg == q.reg then { p with mask := p.mask &&& ~~~q.mask } else p

/-- The writes of a path that have become visible are made, in path order; an older write that is not yet visible
never overtakes a younger one that is (R131). -/
def settle (g : Group) : List Pend → List Pend → Group × List Pend
  | [], kept => (g, kept)
  | p :: t, kept =>
    if p.lat ≤ p.age then settle (g.commit1 p) t (kept.map fun q => q.shadow p)
    else settle g t (kept ++ [p])

/-- Every write of a path is made: at a clause boundary or a trap (R129, R309). -/
def Group.settleAll (g : Group) (slot : Bool) : Group :=
  let p := g.ctx.path slot
  let g := p.pend.foldl Group.commit1 g
  g.setCtx (g.ctx.setPath slot { g.ctx.path slot with pend := [], la := none, lb := none, lc := none })

/-- A register written by an operation in flight: no older fixed-latency write reaches those lanes afterwards. -/
def Group.dropPend (g : Group) (pred : Bool) (reg : Nat) (mask : Word) : Group :=
  let f := fun (p : Path) => { p with pend := p.pend.map fun q =>
    if q.pred == pred && q.reg == reg then { q with mask := q.mask &&& ~~~mask } else q }
  g.setCtx { g.ctx with p0 := f g.ctx.p0, p1 := f g.ctx.p1 }

/-! ### Traps -/

/-- The eight words of a frame (R310). -/
def frameWords (t : Trap) (nested : Bool) : List Word :=
  [word (t.code.num + (match t.delivery with | .precise => 0 | .deferred => 1 | .asynchronous => 2) * 2 ^ 10 +
      t.lane.toNat * 2 ^ 12 + t.slot * 2 ^ 13 + nested.toNat * 2 ^ 15 + t.laneIndex * 2 ^ 16),
   t.pc, t.mask, t.info, word t.address, word (t.address / 2 ^ 32 % 2 ^ 16), t.resume, t.word]

/-- The frame is written to eight shadow registers. -/
def Group.writeFrame (g : Group) (base : Nat) (ws : List Word) : Group :=
  { g with sureg := ((List.range 8).zip ws).foldl (fun r p => Cells.set 0 r (base + p.1) p.2) g.sureg }

/-- A fresh handler state at an entry: the predicate shadow set is kept (R305, R306). -/
def handlerCtx (old : Ctx) (entry : Nat) : Ctx := { pc := word entry, q := old.q, preds := old.preds, granted := 0 }

/-- Operations of an earlier handler entry run on in their order, but its flags and counters are gone (R306, R307). -/
def Group.orphanOps (g : Group) : List Op :=
  g.ops.map fun o => if o.level = 0 then o else { o with flag := none, orphan := true, parked := 0 }

/-- The deferred faults once a handler entry ends or gives way: they stay pending (R312), those of its operations without the
flags and counters of that entry (R307). -/
def Group.shedFaults (g : Group) : List Deferred :=
  g.deferred.map fun d => if d.level = 0 then d else { d with flag := none, paths := [] }

/-- The deferred faults as the interrupted context keeps them beside its own, once its handler entry has ended. -/
def Group.keptFaults (g : Group) : List Deferred := g.shedFaults.map fun d => { d with level := 0 }

/-- A path as a trap leaves it: one inside its clause stands where it is until it issues again (R309). -/
def Path.trapped (p : Path) : Path := { p with atTrap := p.st == .running && p.left != 0 }

/-- The execution state of the context at a trap entry, resuming at `pc`. -/
def Ctx.trapped (c : Ctx) (pc : Word) : Ctx := { c with pc := pc, p0 := c.p0.trapped, p1 := c.p1.trapped }

/-- Trap entry at depth 0 (R309, R310): the frame, the mode, and the handler at the vector's entry. Both paths of
the context are left at boundaries with every write visible. -/
def Group.enterHandler (g : Group) (v : TrapVector) (t : Trap) (e : EntryKind) : Group :=
  let g := (g.settleAll false).settleAll true
  let g := g.writeFrame 24 (frameWords t false)
  { g with mode := .handler, entry := e, k := g.k.trapped t.resume, h := handlerCtx g.h v.entry, trapS := none, trap0 := none, trap1 := none
           ops := g.orphanOps, deferred := g.keptFaults
           whyS := none, whyL := none, restored := false, pageWait := none, parkH := none, swDrain := false, leaves := []
           waitPeer := none, waitLost := false, waitMesh := false }

/-- Entry at depth 1 (R307). -/
def Group.enterNested (g : Group) (v : TrapVector) (t : Trap) : Group :=
  let g := (g.settleAll false).settleAll true
  let g := g.writeFrame 16 (frameWords t true)
  { g with mode := .nested, h := handlerCtx g.h v.nested, trapS := none, trap0 := none, trap1 := none
           ops := g.orphanOps, deferred := g.shedFaults
           whyS := none, whyL := none, pageWait := none, parkH := none, leaves := [], waitPeer := none, waitLost := false, waitMesh := false }

/-- Some trap of the group waits for a boundary. -/
def Group.trapWaits (g : Group) : Bool :=
  g.trapS.isSome || g.trap0.isSome || g.trap1.isSome ||
    (g.mode == .kernel && (!g.watch.isEmpty || !g.stepTraps.isEmpty || g.preempt.isSome))

/-- A path is at a point where a trap may be entered (R309, R386): a parked one, one that waits for a page of its code, and
one that has issued nothing since the last trap, stands where it is. -/
def pathStopped (p : Path) (trap stopped : Bool) : Bool :=
  p.st != .running || p.left == 0 || p.park.isSome || p.atTrap || trap || stopped

/-- Both paths of the context stand where R309 stops them. A group parked whole stands before its instruction (R218). -/
def Group.atBoundary (g : Group) : Bool :=
  g.parkWhole.isSome ||
    (pathStopped g.k.p0 g.trap0.isSome g.stop0.stopped && pathStopped g.k.p1 g.trap1.isSome g.stop1.stopped)

/-- The trap of a PREEMPT (R310, R319). -/
def preemptTrap (g : Group) (info : Word) (area : Nat) : Trap :=
  { code := .preempt, delivery := .asynchronous, slot := 3, pc := g.k.pc, info := info, address := area
    resume := g.k.pc }

/-- The traps that are ready, in the order of R312. PREEMPT comes after them, once the group has drained (R319). -/
def Group.ready (g : Group) : List Trap :=
  let raised := [g.trapS, g.trap0, g.trap1].filterMap id
  raised.filter (fun t => t.delivery == .precise) ++
    sortRank (fun (t : Trap) => [t.op.getD 0]) (raised.filter fun t => t.delivery == .deferred) ++
    raised.filter (fun t => t.delivery == .asynchronous) ++
    (g.watch.take 1).map (fun t => { t with resume := g.k.pc, pc := if t.lane then g.k.pc else t.pc }) ++
    ((g.stepTraps.take 1).map fun t => { t with resume := g.k.pc, pc := if t.lane then g.k.pc else t.pc })

/-- What an entered trap takes away from the pending ones (R312). -/
def Group.consume (g : Group) (t : Trap) : Group :=
  match t.code, t.delivery with
  | .watchpoint, _ => { g with watch := g.watch.drop 1 }
  | .singleStep, _ => { g with stepTraps := g.stepTraps.drop 1 }
  | .preempt, _ => { g with preempt := none }
  | _, .deferred => { g with deferred := g.deferred.filter fun d => some d.op != t.op }
  | _, _ => g

/-- The kind of entry of a trap: PREEMPT with info 0 to 2 saves, with 3 or 0x100 and above restores. -/
def entryKind (t : Trap) : EntryKind :=
  if t.code = .preempt then (if t.info.toNat ≤ 2 then .save else .restore) else .trap

/-- The code is delivered to the handler (R308). -/
def TrapVector.handles (v : TrapVector) (c : Code) : Bool := c == .preempt || bitAt v.handled (c.num - 1)

/-- The record of a trap that has no handler, and the end of the context (R308). -/
def State.unhandled (s : State) (g : Group) (t : Trap) : State :=
  let k := s.gridOf g
  (s.record g.die k.part 0x27
    { agent := t.lane.toNat, group := some g.uid, core := g.core, index := g.index, va := t.address
      pc := if t.lane then word t.laneIndex else t.pc, mask := t.mask, grid := k.uid } t.code.num).terminateGrid k 3 0xF9

/-- The stream that has raised a trap: 0 and 1 the slots, 3 the scalar stream. -/
def Group.raiser (g : Group) (t : Trap) : Option Nat :=
  if g.trapS == some t then some 3 else if g.trap0 == some t then some 0 else if g.trap1 == some t then some 1 else none

/-- A step whose instruction traps ends at trap entry, with a kind-3 event that holds the code (R383, R388): the stream stands
stopped, unless each of its steps takes SINGLE_STEP. -/
def State.endStep (s : State) (g : Group) (t : Trap) : State × Group :=
  match g.raiser t with
  | none => (s, g)
  | some n =>
    let x := g.stop n
    if x.step then
      (s.event g n 3 (word t.code.num) 0 0,
       if x.trapEach then g else g.setStop n { x with stopped := true, step := false, kind := 3 })
    else (s, g)

/-- The group enters the first ready trap, if its paths stand at boundaries (R309, R312). -/
def State.tryEnter (s : State) (g : Group) : State :=
  if g.mode != .kernel || !g.atBoundary then s
  else
    match g.ready with
    | [] => s
    | t :: _ =>
      let k := s.gridOf g
      if !k.vector.handles t.code then s.unhandled g t
      else
        let (s1, g1) := s.endStep g t
        s1.setGroup ((g1.consume t).enterHandler k.vector t (entryKind t))

/-- A trap is taken by a stream, 0 and 1 the path slots, 3 the scalar stream: in kernel mode it is entered as soon as
the paths stand at boundaries, at handler depth 0 it nests where the handled mask has its code (R308), at depth 1 it ends the
context as a double fault (R307, R309). -/
def State.raise (s : State) (g : Group) (stream : Nat) (t : Trap) : State :=
  match g.mode with
  | .kernel =>
    let g' :=
      if stream = 0 then { g with trap0 := some t }
      else if stream = 1 then { g with trap1 := some t }
      else { g with trapS := some t }
    (s.setGroup g').tryEnter g'
  | .handler =>
    if (s.gridOf g).vector.handles t.code then s.setGroup ((g.consume t).enterNested (s.gridOf g).vector t) else s.unhandled g t
  | .nested => s.terminateGrid (s.gridOf g) 3 0xFF

end Sys2Proof.Machine
end

