-- ==== Sys2Proof/Machine/Paths.lean ====
section
/-! DEFINITION. Path slots: leaving a path, reaching a reconvergence point, merging, serial mode, the end of a lane
block (R220 to R226), and the point after each clause. -/
namespace Sys2Proof.Machine

/-- The lanes that issue in a path: the running lane alone in serial mode (R225). -/
def Path.active (p : Path) : Word :=
  match p.serial with
  | some v => p.mask &&& laneBit v.lane
  | none => p.mask

/-- Entries in use in both parts of the divergence stack (R220). -/
def Ctx.depth (c : Ctx) : Nat := c.s0.length + c.s1.length

/-- Lanes leave a path whose side goes to its reconvergence index (R222): into W where the stack is empty, else the top
entry brings them back. -/
def Path.leave (p : Path) (stack : List Entry) (m : Word) : Path :=
  { p with mask := p.mask &&& ~~~m, w := if stack.isEmpty then p.w ||| m else p.w }

/-- A slot has reached its reconvergence point, or its mask is empty (R223). -/
def Ctx.reachPoint (c : Ctx) (slot : Bool) : Nat → Ctx
  | 0 => c
  | fuel + 1 =>
    let p := c.path slot
    match c.stack slot with
    | [] =>
      match p.rc with
      | none => c.setPath slot {}
      | some r => c.setPath slot { p with mask := p.mask ||| p.w, w := 0, st := .arrived, pc := r, left := 0 }
    | e :: t =>
      let (c', p') :=
        if !e.phase then
          (c.setStack slot ({ e with phase := true } :: t),
           { p with mask := e.waitMask &&& ~~~c.done, pc := e.waitPc, rc := some e.rcv })
        else
          (c.setStack slot t,
           { p with mask := e.merge &&& ~~~c.done, pc := e.rcv, rc := e.outer })
      let c'' := c'.setPath slot p'
      if p'.mask ≠ 0 && p'.rc ≠ some p'.pc then c'' else c''.reachPoint slot fuel

/-- The two paths merge where both have arrived at one index (R224). -/
def Ctx.merge (c : Ctx) : Ctx :=
  if c.p0.st = .arrived && c.p1.st = .arrived && c.p0.rc == c.p1.rc then
    let m := (c.p0.mask ||| c.p1.mask) &&& ~~~c.done
    { c with
      p0 := if m = 0 then {} else { st := .running, pc := c.p0.pc, mask := m }
      p1 := {} }
  else c

/-- The next lane of a serial run, or the end of serial mode (R225), where the run of the lane has ended: at the
branch's reconvergence index, at rc, or in D. -/
def Ctx.serialNext (c : Ctx) (slot : Bool) : Ctx :=
  let p := c.path slot
  match p.serial with
  | none => c
  | some v =>
    let here := inMask p.mask v.lane
    if here && p.pc ≠ v.rcv && p.rc ≠ some p.pc then c
    else
      let p1 := if here && p.pc ≠ v.rcv then p.leave (c.stack slot) (laneBit v.lane) else p
      match (lanesOf p1.mask).find? fun l => v.lane < l with
      | some l => c.setPath slot { p1 with serial := some { v with lane := l }, pc := v.branch }
      | none => c.setPath slot { p1 with serial := none, pc := v.rcv }

/-- What a slot does at a clause boundary before a clause starts: the serial run, then R223. -/
def Ctx.slotBoundary (c : Ctx) (slot : Bool) : Ctx :=
  let p := c.path slot
  if p.st ≠ .running || p.left ≠ 0 then c
  else
    let c1 := c.serialNext slot
    let p1 := c1.path slot
    if p1.serial.isSome then c1
    else if p1.mask = 0 || p1.rc = some p1.pc then c1.reachPoint slot (2 * (c1.stack slot).length + 1)
    else c1

/-- The lane block has completed: every lane of its starting mask is in D (R224). -/
def Ctx.complete (c : Ctx) : Ctx := if c.busy && c.start &&& ~~~c.done = 0 then { c with busy := false } else c

/-- Both slots at a boundary (R223, R225). -/
def Ctx.boundary (c : Ctx) : Ctx := (c.slotBoundary false).slotBoundary true

/-- The slots after their boundaries: two paths that have arrived merge, and the lane block may have completed (R224). -/
def Ctx.join (c : Ctx) : Ctx := c.merge.complete

/-- A path goes to an index with a mask at the end of its clause (R228): what its boundary does is done there. -/
def Path.goTo (p : Path) (h : Nat) (m : Word) : Path := { p with pc := h, mask := m, left := 0 }

/-- The other slot holds no path, and this one has no reconvergence index and an empty stack (R220). -/
def Ctx.splitFree (c : Ctx) (slot : Bool) : Bool :=
  (c.path !slot).st == .free && (c.path slot).rc.isNone && (c.stack slot).isEmpty

/-- The branch of R228 of the lanes `A` of a slot, at index `i`: the lanes `T` go to `t`, the others to `f`, and `r` is
the reconvergence index. -/
def Ctx.branch (c : Ctx) (slot : Bool) (i t f r : Nat) (act taken : Word) : Ctx :=
  let p := c.path slot
  let n := act &&& ~~~taken
  if p.serial.isSome then c.setPath slot (p.goTo (if taken = 0 then f else t) p.mask)
  else if n = 0 then c.setPath slot (p.goTo t act)
  else if taken = 0 then c.setPath slot (p.goTo f act)
  else if p.rc = some t then c.setPath slot ((p.leave (c.stack slot) taken).goTo f n)
  else if p.rc = some f then c.setPath slot ((p.leave (c.stack slot) n).goTo t taken)
  else if c.splitFree slot then
    { c with
      p0 := { st := .running, pc := f, mask := n, rc := some r }
      p1 := { st := .running, pc := t, mask := taken, rc := some r } }
  else if c.depth < c.granted then
    let e : Entry := { waitPc := t, waitMask := taken, rcv := r, outer := p.rc, merge := act }
    (c.setStack slot (e :: c.stack slot)).setPath slot { p.goTo f n with rc := some r }
  else
    let l := lowest act
    c.setPath slot { p.goTo (if inMask taken l then t else f) act with
      serial := some { branch := i, rcv := r, lane := l } }

/-- Lanes of a slot end: they enter D and leave the path (R230). -/
def Ctx.endLanes (c : Ctx) (slot : Bool) (m : Word) : Ctx :=
  let p := c.path slot
  { c.setPath slot { p with mask := p.mask &&& ~~~m } with done := c.done ||| m }

end Sys2Proof.Machine
end

