-- ==== Sys2Proof/Machine/Operands.lean ====
section
/-! DEFINITION. Every operand form, and the two frames in which an instruction is issued: the scalar stream's (R147)
and a lane path's (R124, R131, R135, R176). -/
namespace Sys2Proof.Machine

/-! ### Uniform registers -/

/-- The uniform register file of the mode. -/
def Group.ufile (g : Group) : Regs := if g.mode = .kernel then g.ureg else g.sureg
/-- A uniform register; g0 reads zero (R147). -/
def Group.u (g : Group) (r : Nat) : Word := if r = 0 then 0 else Cells.get 0 g.ufile r
/-- The group with a uniform register written; g0 stays zero (R147). -/
def Group.setU (g : Group) (r : Nat) (v : Word) : Group :=
  if r = 0 then g
  else if g.mode = .kernel then { g with ureg := Cells.set 0 g.ureg r v }
  else { g with sureg := Cells.set 0 g.sureg r v }
/-- An even pair (R92). -/
def Group.u64 (g : Group) (r : Nat) : DWord := dword (g.u r) (g.u (r + 1))
/-- The group with an even pair written. -/
def Group.setU64 (g : Group) (r : Nat) (v : DWord) : Group := (g.setU r (loWord v)).setU (r + 1) (hiWord v)
/-- Uniform registers that the fields of an instruction may name (R120, R305). -/
def Group.ulimit (g : Group) : Nat := if g.mode = .kernel then g.uwin else 32
/-- Vector registers that the fields of an instruction may name (R126, R305). -/
def Group.vlimit (g : Group) : Nat := if g.mode = .kernel then g.vwin else 16

/-- A group predicate; q7 is true. -/
def Ctx.qget (c : Ctx) (n : Nat) : Bool := if n = 7 then true else c.q.getLsbD n
/-- The state with a group predicate written; q7 stays true (R147). -/
def Ctx.qset (c : Ctx) (n : Nat) (v : Bool) : Ctx :=
  if n = 7 then c
  else
    let m := (1#7 <<< n)
    { c with q := if v then c.q ||| m else c.q &&& ~~~m }

/-! ### What an issue leaves behind -/

/-- The execution state of a level: 0 the kernel's, otherwise the handler's. -/
def Group.ctxOf (g : Group) (level : Nat) : Ctx := if level = 0 then g.k else g.h
/-- The group with the execution state of a level replaced. -/
def Group.setCtxOf (g : Group) (level : Nat) (c : Ctx) : Group := if level = 0 then { g with k := c } else { g with h := c }

/-- The quarter of a group, as a key. -/
def Group.quarterKey (g : Group) : Nat := g.die * 512 + g.core * 4 + g.quarter

/-- The events of a stop that are due where its stream stands: all of them at an instruction boundary of the scalar stream and at
a clause boundary of a path; inside a clause, where a trap or stop has left the path, that of a HALT, but not those of watchpoints,
which wait for the clause boundary (R386, R395). -/
def Group.dueEvents (g : Group) (slot : Nat) : List (Nat × Nat × Word × Word × Word) :=
  let x := g.stop slot
  let p := g.k.path (slot == 1)
  if slot = 3 || p.left = 0 then x.events else if p.atTrap then x.events.filter fun e => e.2.1 != 2 else []

/-- The stop with events taken out that have been recorded. -/
def Stop.without (x : Stop) (es : List (Nat × Nat × Word × Word × Word)) : Stop :=
  let rest := x.events.filter fun e => !es.contains e
  { x with events := rest, halt := !rest.isEmpty }

/-- A stop that waited takes effect where its stream stands now. -/
def Group.stopDue (g : Group) (slot : Nat) : Bool := g.mode == .kernel && (g.stop slot).halt && !(g.dueEvents slot).isEmpty

/-- A stream that is held where it stands: a path inside its clause resumes there as R309 says, with its writes visible (R386). -/
def Group.holdPath (g : Group) (slot : Nat) : Group :=
  if slot = 3 then g
  else
    let g := g.settleAll (slot == 1)
    let p := g.ctx.path (slot == 1)
    g.setCtx (g.ctx.setPath (slot == 1) { p with atTrap := p.st == .running && p.left != 0 })

/-- A stop of a kind takes effect where the stream stands, and with it those that waited and are due (R386). -/
def State.stopHere (s : State) (g : Group) (slot kind : Nat) (step : Bool) : State :=
  let g1 := g.holdPath slot
  let es := g1.dueEvents slot
  (s.stopEvents g1 slot es).setGroup
    (g1.setStop slot { (g1.stop slot).without es with stopped := true, step := step, kind := kind })

/-- A stop after a step of the instruction at `pos`: the stream is stopped again with a kind-3 event, or takes SINGLE_STEP
(R310, R388): a path inside its clause stands at its step point until then, as a stopped one does (R386, log 140). -/
def State.afterStep (s : State) (g : Group) (slot pos : Nat) : State :=
  let x := g.stop slot
  if x.step && g.mode == .kernel then
    let s1 := s.event g slot 3 0 0 0
    if x.trapEach then
      let t : Trap := { code := .singleStep, delivery := .asynchronous, lane := slot != 3
                        slot := if slot == 3 then 3 else pathIndex (g.ctx.path (slot == 1)) (slot == 1)
                        pc := if slot == 3 then word pos else g.ctx.pc, laneIndex := if slot == 3 then 0 else pos }
      let h := g.holdPath slot
      let g' := { h with stepTraps := h.stepTraps ++ [t] }
      (s1.setGroup g').tryEnter g'
    else s1.stopHere g slot 3 false
  else s

/-- A stop that was waiting for a boundary takes effect (R386). -/
def State.stopAt (s : State) (g : Group) (slot : Nat) : State :=
  if g.stopDue slot then
    let es := g.dueEvents slot
    let kind := (es.getLast?.map fun e => e.2.1).getD (g.stop slot).kind
    (s.stopEvents g slot es).setGroup (g.setStop slot { (g.stop slot).without es with stopped := true, kind := kind })
  else s

/-- An instruction of a stream has issued: its quarter's slot is used, the block has issued (R369), breakpoint
skipping ends, a step or a waiting stop takes effect. The context goes on from a `bar` at which it has arrived. -/
def State.issued (s : State) (g : Group) (slot : Nat) (pos : Nat) : State :=
  let x := g.stop slot
  let g := if g.mode = .kernel then g.setStop slot { x with skip := none } else g
  let g := if slot = 3 then { g with issued := true, whyS := none, swDrain := false, waitPeer := none, waitMesh := false, leaves := []
                                     barAt := if g.mode = .kernel then none else g.barAt }
           else { g with issued := true, whyL := none, lastSlot := slot == 1, leaves := [] }
  let d := s.die g.die
  let e : Issue := { quarter := g.quarterKey, gid := g.gid, part := s.partOf g, lane := slot != 3, pos := pos }
  let s := s.setDie g.die { d with lastIssue := e :: (d.lastIssue.filter fun y => !(y.quarter == e.quarter && y.lane == e.lane)) }
  let s := if slot = 3 then { s with usedS := g.quarterKey :: s.usedS } else { s with usedL := g.quarterKey :: s.usedL }
  let s := s.modBlock g.block fun b => if b.startClk.isNone then { b with startClk := some s.clk } else b
  let s := s.setGroup g
  if x.step then s.afterStep g slot pos else if x.halt then s.stopAt g slot else s

/-- A slot whose path has ended holds no stop; what its stop still had to record is recorded (R385). -/
def State.freeStop (s : State) (u : Nat) (slot : Bool) : State :=
  match s.group? u with
  | some g =>
    let x := g.stop slot.toNat
    if (g.k.path slot).st != .free || x == {} then s
    else (s.stopEvents g slot.toNat x.events).setGroup (g.setStop slot.toNat {})
  | none => s

/-- A stop with what another has still to do: wait for its boundary, or for its step. -/
def Stop.join (x y : Stop) : Stop :=
  { x with
    halt := x.halt || y.halt, events := x.events ++ y.events, kind := if y.halt then y.kind else x.kind
    step := x.step || y.step, trapEach := x.trapEach || y.trapEach, skip := x.skip.orElse fun _ => y.skip }

/-- The stop of a path that has merged into slot 0 goes with it (R386, R395). -/
def Group.joinStops (g : Group) : Group := (g.setStop 0 (g.stop0.join g.stop1)).setStop 1 {}

/-- Both slots of a level stand where a boundary has left them: a path that has ended holds no stop, and two that have arrived
merge (R224), once no stop holds either of them (R386). -/
def State.rejoin (s0 : State) (u level : Nat) : State :=
  let s := if level = 0 then (s0.freeStop u false).freeStop u true else s0
  match s.group? u with
  | none => s
  | some g =>
    let c := (g.ctxOf level).join
    if level ≠ 0 then s.setGroup (g.setCtxOf level c)
    else if g.stop0.stopped || g.stop1.stopped then s
    else if (g.k.path true).st == .free || c.p1.st != .free then s.setGroup { g with k := c }
    else
      let g1 := ({ g with k := c } : Group).joinStops
      ((s.setGroup g1).stopAt g1 0).freeStop u false

/-- The second path of a step that split its path is stopped too, or goes on with steps that take SINGLE_STEP; what the first one's
stop still has to record stays with it (R385, R388). -/
def State.stepSibling (s : State) (u : Nat) (slot : Bool) (trapEach : Bool) : State :=
  s.modGroup u fun g =>
    g.setStop slot.toNat (if trapEach then { step := true, trapEach := true } else { stopped := true, kind := 3 })

/-- A lane instruction that may have split its path has issued. A step of it records an event for each path, slot 0
first (R388, R395). -/
def State.issuedSplit (s : State) (g : Group) (slot split : Bool) (pos : Nat) : State :=
  let x := g.stop slot.toNat
  if split && x.step && g.mode == .kernel then
    let s1 := if slot then s.event g 0 3 0 0 0 else s
    let s2 := s1.issued g slot.toNat pos
    let s3 := if slot then s2 else s2.event g 1 3 0 0 0
    s3.stepSibling g.uid (!slot) x.trapEach
  else s.issued g slot.toNat pos

/-- A lane path does not issue, for a reason of R389: the lowest reason of this clk counts. -/
def Group.waitL (g : Group) (why : Reason) : Group :=
  { g with whyL := some (match g.whyL with | some y => min y why | none => why) }

/-! ### Scalar issue -/

/-- How a scalar instruction ends. -/
inductive Act where
  /-- it issues, and the stream goes on with the next word -/
  | adv (g : Group)
  /-- so does an instruction that has written a pair of uniform registers, whose word has valid checks again (log 6) -/
  | pair (g : Group) (r : Nat)
  /-- it issues, and the stream goes on at an offset -/
  | jump (g : Group) (pc : Word)
  /-- it does not issue yet, for a reason of R389 -/
  | wait (why : Reason) (g : Group)
  /-- it takes a precise trap -/
  | trap (c : Code) (info : Word) (address : Nat)
  /-- it delivers a deferred fault (R156) -/
  | deliver (d : Deferred)
  /-- it ends its handler entry or its context: the state says all -/
  | stop
  deriving Repr

/-- A precise trap without an address or information. -/
def Act.fault (c : Code) : Act := .trap c 0 0

/-- A pair of uniform registers of the interrupted context has been written whole (log 6). -/
def State.healPair (s : State) (g : Group) (r : Nat) : State :=
  if g.inHandler then s else s.heal .uniform (groupKey g.uid (4 * r)) 8

/-- The end of a scalar instruction, from the group before it. -/
def State.finish (s : State) (c : Cur) (g0 : Group) : Act → State
  | .adv g => s.issued (g.setCtx { g.ctx with pc := g.ctx.pc + 4 }) 3 g0.ctx.pc.toNat
  | .pair g r => (s.healPair g0 r).issued (g.setCtx { g.ctx with pc := g.ctx.pc + 4 }) 3 g0.ctx.pc.toNat
  | .jump g pc => s.issued (g.setCtx { g.ctx with pc := pc }) 3 g0.ctx.pc.toNat
  | .wait why g => s.setGroup { g with whyS := some why }
  | .trap code info addr =>
    s.raise g0 3 { code := code, pc := g0.ctx.pc, info := info, address := addr, word := word c.word
                   resume := if code = .software then g0.ctx.pc + 4 else g0.ctx.pc }
  | .deliver d =>
    s.raise g0 3 { d.trap with resume := g0.ctx.pc, op := some d.op, pc := if d.trap.lane then g0.ctx.pc else d.trap.pc }
  | .stop => s

/-- The first register of a list outside the uniform window. -/
def Group.uOut (g : Group) (regs : List Nat) : Option Nat := regs.find? fun r => g.ulimit ≤ r

/-- A uniform register of the list reads as uncorrectable (R311, R410, R411); g0 reads no store, and a handler's registers are not
poisoned. -/
def State.badUni (s : State) (g : Group) (regs : List Nat) : Bool :=
  !s.poison.isEmpty && !g.inHandler && regs.any fun r => r != 0 && s.poisoned .uniform (groupKey g.uid (4 * r)) 4

/-- A scalar instruction is issued by the stream that `cur` names: REGISTER_RANGE for the uniform registers it
names (R120, R305), UNCORRECTABLE for those it reads (R311), then its own effect on the state and its group. -/
def issueScalarS (s : State) (regs : List Nat) (f : State → Group → State × Act) (reads : List Nat := regs) :
    Host.Outcome State Fault Refusal :=
  match s.cur with
  | none => .fault .noIssuer
  | some c =>
    match s.group? c.group with
    | none => .fault .noIssuer
    | some g =>
      match g.uOut regs with
      | some r => .next (s.finish c g (.trap .registerRange (word r) 0))
      | none =>
        if s.badUni g reads then .next (s.finish c g (.fault .uncorrectable))
        else
          let (s', a) := f s g
          .next (s'.finish c g a)

/-- A scalar instruction that changes its group only. -/
def issueScalar (s : State) (regs : List Nat) (f : State → Group → Act) (reads : List Nat := regs) :
    Host.Outcome State Fault Refusal :=
  issueScalarS s regs (fun s g => (s, f s g)) reads

/-! ### Vector operands -/

/-- A vector register, every lane. -/
def Group.vread (g : Group) (n : Nat) : Lanes := (List.range 32).map fun l => g.vget n l

/-- A read value: the low and the high register of a pair. -/
structure Val where
  lo : Lanes := []
  hi : Lanes := []
  deriving DecidableEq, Repr, Inhabited

/-- The 64 bits of a lane. -/
def Val.wide (v : Val) (l : Nat) : DWord := dword (lane v.lo l) (lane v.hi l)

/-- A value that is the same in every lane. -/
def Val.splat (lo hi : Word) : Val := { lo := List.replicate 32 lo, hi := List.replicate 32 hi }

/-- The latch entry of a position: 2 is a, 1 is b, 0 is c, the bit numbers of the use and hold fields. -/
def Path.latch (p : Path) (k : Nat) : Option Latch := if k = 2 then p.la else if k = 1 then p.lb else p.lc
/-- The path with the latch entry of a position replaced. -/
def Path.setLatch (p : Path) (k : Nat) (x : Option Latch) : Path :=
  if k = 2 then { p with la := x } else if k = 1 then { p with lb := x } else { p with lc := x }

/-- A vector source at a position: the latch where the use bit is set and the entry matches, else the registers
(R131, R135). `n` is 2 for a pair. -/
def readVec (g : Group) (p : Path) (l : LaneOp) (k reg n : Nat) : Val :=
  let plain : Val := { lo := g.vread reg, hi := if n = 2 then g.vread (reg + 1) else [] }
  if l.use.getLsbD k then
    match p.latch k with
    | some e => if 0 < e.left && e.reg == reg && e.pair == (n == 2) && n ≤ 2 then { lo := e.lo, hi := e.hi } else plain
    | none => plain
  else plain

/-- A hold bit records what was read (R135). The four registers of a quad are no entry that a use could match, so
they only take the place of the earlier one (log 7). -/
def holdVec (p : Path) (l : LaneOp) (k reg n : Nat) (v : Val) : Path :=
  if l.hold.getLsbD k then
    p.setLatch k (if n ≤ 2 then some { reg := reg, pair := n == 2, lo := v.lo, hi := v.hi, left := 2 } else none)
  else p

/-- Vector registers of a field. -/
def fldCount : Fld → Nat
  | .vec n _ => n
  | _ => 0

/-- An entry after one more lane instruction of its path. -/
def ageLatch (x : Option Latch) : Option Latch :=
  match x with
  | some e => if e.left ≤ 1 then none else some { e with left := e.left - 1 }
  | none => none

/-- Element 0 of an immediate in every element of a packed type (R109). -/
def splatImm (t : Ty) (imm : Word) : Word :=
  let e := t.elems
  let w := 32 / e
  (List.range e).foldl (fun r i => r ||| ((imm &&& (BitVec.allOnes 32 >>> (32 - w))) <<< (w * i))) 0

/-- An immediate as an operand of the type, before the rules of floating immediates (R109). -/
def immOperand (l : LaneOp) : Word × Word :=
  let v := if l.vb.getLsbD 7 then splatImm l.ty l.imm else l.imm
  (v, match l.ty with | .i64 => (if l.imm.getLsbD 31 then BitVec.allOnes 32 else 0) | _ => 0)

/-- What an issued lane instruction sees: the group after its path has passed it, the lanes whose guard holds, and
its operands. -/
structure LaneIn where
  s    : State
  /-- the group before the instruction -/
  g0   : Group
  /-- the group with the path advanced and earlier results visible -/
  g    : Group
  /-- the path before the instruction, with earlier results visible -/
  p    : Path
  slot : Bool
  /-- the lanes active in the path -/
  act  : Word
  /-- the active lanes whose guard holds -/
  ex   : Word
  l    : LaneOp
  word : Nat
  a    : Val
  b    : Val
  c    : Val

/-- How a lane instruction ends. -/
inductive LAct where
  /-- it issues with this group -/
  | go (g : Group)
  | wait (why : Reason)
  /-- it takes a precise trap that concerns these lanes -/
  | trap (c : Code) (mask : Word) (info : Word) (address : Nat)
  /-- it is parked or held: the state says all -/
  | stop
  deriving Repr

/-- A precise trap of every active lane whose guard holds, without an address. -/
def LaneIn.fault (x : LaneIn) (c : Code) : LAct := .trap c x.ex 0 0

/-- The guard of a lane (R124). -/
def guardHolds (c : Ctx) (l : LaneOp) (n : Nat) : Bool := (c.pget l.pred.toNat n) != l.neg

/-- The group in which the path of a slot has come to its next instruction: ages grow by the distance, visible
results are written (R131). -/
def Group.reach (g : Group) (slot : Bool) (dist : Nat) : Group :=
  let p := g.ctx.path slot
  let aged := p.pend.map fun q => { q with age := q.age + max dist 1 }
  let (g', kept) := settle (g.setCtx (g.ctx.setPath slot { p with pend := [] })) aged []
  g'.setCtx (g'.ctx.setPath slot { g'.ctx.path slot with pend := kept })

/-- The path moves past one instruction of its clause. -/
def Path.pass (p : Path) : Path :=
  { p with pc := p.pc + 1, left := p.left - 1, atTrap := false, xAt := none, la := ageLatch p.la, lb := ageLatch p.lb, lc := ageLatch p.lc }

/-- Registers out of the window that a field names: the first of them. -/
def fldOut (g : Group) (f : Fld) (v : Nat) : Option Nat :=
  match f with
  | .vec n _ => if g.vlimit < v + n then some (max v g.vlimit) else none
  | .uni n _ => if g.ulimit < v + n then some (max v g.ulimit) else none
  | .base => if g.ulimit < 2 * v + 2 then some (max (2 * v) g.ulimit) else none
  | _ => none

/-- The first register that lies outside its window (R126). -/
def laneOut (g : Group) (l : LaneOp) (r : LaneRule) : Option Nat :=
  let b :=
    match l.form with
    | .reg => if r.bn = 0 then none else fldOut g (.vec r.bn 1) l.vb.toNat
    | .uni => fldOut g (.uni r.bn 1) l.imm.toNat
    | .mem => if r.bn = 0 then none else fldOut g (.vec 1 1) l.vb.toNat
    | .imm => none
  ((fldOut g r.d l.vd.toNat).orElse fun _ => (fldOut g r.a l.va.toNat).orElse fun _ =>
    b.orElse fun _ => fldOut g r.c l.vc.toNat)

/-- Vector registers that an instruction writes. Only the expected registers of a compare-and-swap are (R212). -/
def destRegs (i : Instr) (l : LaneOp) (r : LaneRule) : List Nat :=
  match r.d, i with
  | .vec _ _, .vatom _ => upFrom l.vd.toNat l.ty.regs
  | .vec n _, _ => upFrom l.vd.toNat n
  | _, _ => []

/-- A register with a strict feed pending for the stream that would write it: a path of lanes, or the scalar stream, which waits for the
lane stream before it writes a vector register (R55, R255, log 137). -/
def Group.fed (g : Group) (path : Option Word) (regs : List Nat) : Bool :=
  g.feeds.any fun f =>
    f.strict && (match path with | some m => f.seen &&& m == 0 | none => f.seenS.isNone && f.seen == 0) &&
      regs.any fun r => decide (f.reg ≤ r) && decide (r < f.reg + f.n)

/-- A register of the mode with a strict feed pending for a path: a handler's registers are never fed to a stream (R259, R305). -/
def Group.feedHits (g : Group) (m : Word) (regs : List Nat) : Bool := !g.inHandler && g.fed (some m) regs

/-- The lanes of the path that issues, none for the scalar stream. -/
def State.issuing (s : State) (g : Group) : Option Word :=
  s.cur.bind fun c => if c.lane then some (g.ctx.path c.slot).active else none

/-- Vector registers that an instruction names. -/
def namedRegs (l : LaneOp) (r : LaneRule) : List Nat :=
  let f := fun (x : Fld) (v : Nat) => match x with | .vec n _ => upFrom v n | _ => []
  f r.d l.vd.toNat ++ f r.a l.va.toNat ++ f r.c l.vc.toNat ++
    (if (l.form == .reg || l.form == .mem) && r.bn != 0 then upFrom l.vb.toNat r.bn else [])

/-- Vector registers that an instruction reads through its source fields. -/
def sourceRegs (l : LaneOp) (r : LaneRule) : List Nat :=
  let f := fun (x : Fld) (v : Nat) => match x with | .vec n _ => upFrom v n | _ => []
  f r.a l.va.toNat ++ f r.c l.vc.toNat ++
    (if (l.form == .reg || l.form == .mem) && r.bn != 0 then upFrom l.vb.toNat r.bn else [])

/-- The destination of an instruction that keeps some of its elements, or that an atomic takes its operand from, is a
source too (R194, R196, R212). -/
def keptRegs (i : Instr) (l : LaneOp) : List Nat :=
  match i with
  | .vpack _ => if 2 < l.ty.elems then [l.vd.toNat] else []
  | .vquant _ => [l.vd.toNat]
  | .vatom _ => upFrom l.vd.toNat (if l.vc.toNat % 16 = 9 then 2 * l.ty.regs else l.ty.regs)
  | _ => []

/-- The lanes whose source registers read as uncorrectable (R311, R411): the vector window lies in the core store from
unit `vbase` of the quarter's share (R28, R54). -/
def State.badLanes (s : State) (g : Group) (regs : List Nat) : Word :=
  if s.poison.isEmpty || g.inHandler then 0
  else maskOf fun l => regs.any fun n =>
    s.poisoned .core (coreKey g.die g.core (g.quarter * 393216 + 128 * (g.vbase + n) + 4 * l)) 4

/-- Uniform registers that a lane instruction reads (R125, R208). -/
def uniRegs (l : LaneOp) (r : LaneRule) : List Nat :=
  let f := fun (x : Fld) (v : Nat) => match x with | .uni n _ => upFrom v n | .base => [2 * v] | _ => []
  f r.a l.va.toNat ++ f r.c l.vc.toNat ++ (if l.form == .uni then upFrom l.imm.toNat r.bn else [])

/-- The coordinates of a block (R14). -/
def blockXyz (k : Grid) (b : Block) : Nat × Nat × Nat := (b.index % k.x, b.index / k.x % k.y, b.index / (k.x * k.y))

/-- The special registers that `srd` and `vsrd` share (R41). -/
def State.sreg (s : State) (g : Group) (n : Nat) : Option Nat :=
  let b := s.blockOf g
  let k := s.gridOf g
  let xyz := blockXyz k b
  match n with
  | 0x01 => some g.index
  | 0x02 => some xyz.1
  | 0x03 => some xyz.2.1
  | 0x04 => some xyz.2.2
  | 0x05 => some k.x
  | 0x06 => some k.y
  | 0x07 => some k.z
  | 0x08 => some k.threads
  | 0x09 => some g.core
  | 0x0A => some g.die
  | 0x0B => some g.quarter
  | 0x0C => some b.variant
  | 0x0D => some (g.index / 64)
  | 0x0E => some (if k.nbhd = 0 then 0xFFFFFFFF else b.index % k.nbhd)
  | 0x13 => some k.cls
  | 0x18 => some k.part
  | 0x19 => some k.depth
  | 0x1A => some (k.strict.toNat + 2 * (k.strict && s.holdsToken g).toNat)
  | 0x1B => some (if k.strict then s.logicalId g else 0)
  | _ => none

/-- A lane can read the special register (R41, R42, R199): those of R41's last column, and in a handler only those that `srd`
reads too. -/
def State.laneReads (s : State) (g : Group) (n : Nat) : Bool :=
  if n = 0x00 || n = 0x16 || n = 0x17 then !g.inHandler else (s.sreg g n).isSome

/-- The number that an instruction takes from its immediate, or, in form 2, from the uniform register there; none where that register
does not lie in the window, or is uncorrectable. -/
def State.immNumber (s : State) (g : Group) (l : LaneOp) : Option Nat :=
  match l.form with
  | .uni => if l.imm.toNat < g.ulimit && !s.badUni g [l.imm.toNat] then some (g.u l.imm.toNat).toNat else none
  | _ => some l.imm.toNat

/-- A view word breaks the field rules of R280: its reserved bits, or a side of more than 160 tiles. -/
def viewReserved (w : Nat) : Bool := bits w 31 29 != 0 || decide (159 < bits w 20 13) || decide (159 < bits w 28 21)

/-- RESERVED_FIELD of an instruction's own entry, which comes before REGISTER_RANGE (R137): a special register that a lane does not
read (R199), a tile number of more than 10 bits (R253), a view word (R280). -/
def State.reservedOwn (s : State) (g : Group) (i : Instr) (l : LaneOp) : Bool :=
  match i with
  | .vsrd _ => !s.laneReads g l.imm.toNat
  | .vaccr _ => (s.immNumber g l).any fun t => decide (1024 ≤ t)
  | .vaccw _ => (s.immNumber g l).any fun t => decide (1024 ≤ t)
  | .vsamp _ => (s.immNumber g l).any viewReserved
  | .vsgat _ => (s.immNumber g l).any viewReserved
  | _ => false

/-- Tiles of the window of the mode (R259). -/
def Group.window (g : Group) : Nat := if g.mode = .kernel then g.awin else 2

/-- The tile of a `vaccr` or `vaccw` that lies outside the window (R253). -/
def State.tileOut (s : State) (g : Group) (i : Instr) (l : LaneOp) : Option Nat :=
  match i with
  | .vaccr _ => (s.immNumber g l).filter fun t => decide (g.window ≤ t)
  | .vaccw _ => (s.immNumber g l).filter fun t => decide (g.window ≤ t)
  | _ => none

/-- Tiles that an operation reads or writes, first and number. -/
def Work.tiles : Work → Option (Nat × Nat)
  | .mma d => some (bits d.s0.toNat 24 15, (bits d.s0.toNat 2 0 + 1) * (bits d.s0.toNat 5 3 + 1))
  | .mzero f n => some (f, n)
  | .mtld f n _ => some (f, n)
  | .mtst f n _ => some (f, n)
  | .vaccr t _ _ => some (t, 1)
  | .vaccw t _ _ => some (t, 1)
  | _ => none

/-- A handler's lane instruction waits for operations on the shadow tile that holds a register it names, those of an earlier
handler entry too (R260). -/
def Group.shadowBusy (g : Group) (regs : List Nat) : Bool :=
  g.inHandler && g.ops.any fun o =>
    o.level != 0 &&
    (match o.work.tiles with
     | some (f, n) => regs.any fun r => decide (f ≤ r / 8) && decide (r / 8 < f + n)
     | none => false)

/-- Operand b of the forms 0, 1 and 2 (R125, R176). -/
def readB (g : Group) (p : Path) (l : LaneOp) (r : LaneRule) : Val :=
  match l.form with
  | .reg => if r.bn = 0 then {} else readVec g p l 1 l.vb.toNat r.bn
  | .imm => let v := immOperand l; Val.splat v.1 v.2
  | .uni => Val.splat (g.u l.imm.toNat) (if r.bn = 2 then g.u (l.imm.toNat + 1) else 0)
  | .mem => if r.bn = 0 then {} else readVec g p l 1 l.vb.toNat 1

/-- A register field read as a source. -/
def readFld (g : Group) (p : Path) (l : LaneOp) (k : Nat) (f : Fld) (v : Nat) : Val :=
  match f with
  | .vec n _ => readVec g p l k v n
  | _ => {}

/-- The trap of a lane instruction (R216, R310). -/
def laneTrap (g : Group) (slot : Bool) (w : Nat) (c : Code) (mask info : Word) (addr : Nat) : Trap :=
  let p := g.ctx.path slot
  { code := c, lane := true, slot := pathIndex p slot, laneIndex := p.pc, pc := g.ctx.pc, mask := mask, info := info
    address := addr, resume := g.ctx.pc, word := word (w / 2 ^ 64) }

/-- What stops a lane instruction before it has an effect. -/
inductive Barred where
  /-- it takes a precise trap on these lanes -/
  | trap (c : Code) (mask info : Word)
  /-- it waits (R260) -/
  | wait (why : Reason)
  deriving DecidableEq, Repr

/-- The lanes of a path on which an instruction acts, its group having come to it. -/
def Group.execLanes (g : Group) (slot : Bool) (l : LaneOp) : Word := (g.ctx.path slot).active &&& maskOf (guardHolds g.ctx l)

/-- What stops a lane instruction, in order: a flag slot that the clause leaves unset (R130), RESERVED_FIELD of its own entry,
REGISTER_RANGE, that of a tile after those of the register fields (R126, R137, R253), FEED_PENDING_WRITE (R255), an uncorrectable source register (R311, R411), a shadow tile in use
(R260). -/
def State.barred (s : State) (g0 : Group) (slot : Bool) (i : Instr) (l : LaneOp) (r : LaneRule) : Option Barred :=
  let g1 := g0.reach slot l.dist.toNat
  let p := g1.ctx.path slot
  let ex := g1.execLanes slot l
  if (r.flag && (if l.slot then p.setB else p.setA).isNone) || s.reservedOwn g0 i l then some (.trap .reservedField ex 0)
  else
    match (laneOut g0 l r).orElse fun _ => s.tileOut g0 i l with
    | some n => some (.trap .registerRange ex (word n))
    | none =>
      let bad := (if s.badUni g0 (uniRegs l r) then ex else s.badLanes g0 (sourceRegs l r ++ keptRegs i l)) &&& ex
      if g0.feedHits p.active (destRegs i l r) then some (.trap .feedPendingWrite ex 0)
      else if bad ≠ 0 then some (.trap .uncorrectable bad 0)
      else if g0.shadowBusy (namedRegs l r) then some (.wait 10)
      else none

/-- What a lane instruction sees: its path has passed it, its operands are read, the latches hold what they should (R135). -/
def laneInput (s : State) (g0 : Group) (slot : Bool) (w : Nat) (l : LaneOp) (r : LaneRule) : LaneIn :=
  let g1 := g0.reach slot l.dist.toNat
  let p := g1.ctx.path slot
  let a := readFld g1 p l 2 r.a l.va.toNat
  let b := readB g1 p l r
  let v := readFld g1 p l 0 r.c l.vc.toNat
  let p' := holdVec (holdVec (holdVec p.pass l 2 l.va.toNat (fldCount r.a) a) l 1 l.vb.toNat r.bn b) l 0
    l.vc.toNat (fldCount r.c) v
  { s := s, g0 := g0, g := g1.setCtx (g1.ctx.setPath slot p'), p := p, slot := slot, act := p.active
    ex := g1.execLanes slot l, l := l, word := w, a := a, b := b, c := v }

/-- A precise trap of a lane instruction is raised. -/
def State.raiseLane (s : State) (g0 : Group) (slot : Bool) (w : Nat) (c : Code) (mask info : Word) (addr : Nat) : State :=
  s.raise g0 slot.toNat (laneTrap g0 slot w c mask info addr)

/-- The path of a slot has come to the end of its clause: its results are written, and both slots do what R223 says (R130). -/
def Group.endClause (g : Group) (slot : Bool) : Group :=
  if (g.ctx.path slot).left = 0 then
    let g := g.settleAll slot
    g.setCtx g.ctx.boundary
  else g

/-- The end of a lane instruction. A stop or a step takes effect on its path before the path may merge; a side of a branch that has
arrived at once is a path of its own (R386, R388, R395). -/
def State.finishLane (s : State) (x : LaneIn) : LAct → State
  | .go g =>
    let g := g.endClause x.slot
    let other := (g.ctx.path !x.slot).st
    let split := (x.g0.ctx.path !x.slot).st == .free && (other == .running || other == .arrived)
    (s.issuedSplit g x.slot split x.p.pc).rejoin g.uid g.mode.level
  | .wait why => s.setGroup (x.g0.waitL why)
  | .trap code mask info addr => s.raiseLane x.g0 x.slot x.word code mask info addr
  | .stop => s

/-- A lane instruction is issued by the path that `cur` names: what stops it, then its own effect on the state and its group. -/
def issueLaneS (s : State) (i : Instr) (f : LaneIn → State × LAct) : Host.Outcome State Fault Refusal :=
  match s.cur, i.laneRule with
  | some c, some (l, r) =>
    match s.group? c.group with
    | none => .fault .noIssuer
    | some g0 =>
      match s.barred g0 c.slot i l r with
      | some (.trap code mask info) => .next (s.raiseLane g0 c.slot c.word code mask info 0)
      | some (.wait why) => .next (s.setGroup (g0.waitL why))
      | none =>
        let x := laneInput s g0 c.slot c.word l r
        let (s', a) := f x
        .next (s'.finishLane x a)
  | _, _ => .fault .noIssuer

/-- A lane instruction that changes its group only. -/
def issueLane (s : State) (i : Instr) (f : LaneIn → LAct) : Host.Outcome State Fault Refusal :=
  issueLaneS s i fun x => (x.s, f x)

/-- The fixed-latency writes of an instruction join those of its path (R130, R131). -/
def LaneIn.write (x : LaneIn) (ws : List Pend) : LAct :=
  let p := x.g.ctx.path x.slot
  .go (x.g.setCtx (x.g.ctx.setPath x.slot { p with pend := p.pend ++ ws }))

/-- The write of a vector register. -/
def LaneIn.vec (x : LaneIn) (lat reg : Nat) (v : Lanes) : Pend := { reg := reg, mask := x.ex, vals := v, lat := lat }
/-- The write of a lane predicate. -/
def LaneIn.pred (x : LaneIn) (lat reg : Nat) (v : Nat → Bool) : Pend :=
  { pred := true, reg := reg, mask := x.ex, vals := (List.range 32).map fun l => if v l then 1 else 0, lat := lat }

/-- A value computed in each lane from the 32-bit operands. -/
def LaneIn.map32 (x : LaneIn) (lat : Nat) (f : Nat → Word) : LAct :=
  x.write [x.vec lat x.l.vd.toNat ((List.range 32).map f)]

/-- A value computed in each lane: one register, or a pair for the 64-bit types (R176). -/
def LaneIn.mapWide (x : LaneIn) (lat : Nat) (f : Nat → DWord) : LAct :=
  let d := x.l.vd.toNat
  let vs := (List.range 32).map f
  x.write ([x.vec lat d (vs.map loWord)] ++
    (if x.l.ty.regs = 2 then [x.vec lat (d + 1) (vs.map hiWord)] else []))

end Sys2Proof.Machine
end

