-- ==== Sys2Proof/Machine/Flags.lean ====
section
/-! DEFINITION. Conditions of compares (R151, R183), completion flags and path counters (R59, R132, R147), the waits
of R69, R162 and R163, and the delivery of deferred faults (R156, R217). -/
namespace Sys2Proof.Machine

/-- The conditions of R151. -/
def condHolds (k : Nat) (a b : Word) : Bool :=
  match k with
  | 0 => a == b
  | 1 => a != b
  | 2 => a.slt b
  | 3 => a.sle b
  | 4 => b.slt a
  | 5 => b.sle a
  | 6 => a.ult b
  | 7 => a.ule b
  | 8 => b.ult a
  | _ => b.ule a

/-- The conditions of R183 on integers already read signed or unsigned. -/
def condInt (k : Nat) (a b : Int) : Bool :=
  match k with
  | 0 => a == b
  | 1 => a != b
  | 2 => decide (a < b)
  | 3 => decide (a ≤ b)
  | 4 => decide (b < a)
  | _ => decide (b ≤ a)

/-- A flag field of the scalar formats: none for 15 (R120). -/
def flagOf (f : FlagField) : Option Nat := if f.toNat < 12 then some f.toNat else none

/-- The value of a completion flag. -/
def Ctx.flag (c : Ctx) (f : Nat) : Nat := c.flags.getD f 0
/-- The value of a path counter. -/
def Ctx.counter (c : Ctx) (n : Nat) : Nat := c.paths.getD n 0

/-- The flag and counters can rise: a flag stays at most 63, a counter at most 255 (R59, R132). -/
def Ctx.canRaise (c : Ctx) (f : Option Nat) (ps : List Nat) : Bool :=
  (match f with
   | some n => decide (c.flag n < 63)
   | none => true) && ps.all fun n => decide (c.counter n < 255)

/-- The flag and counters rise by one. -/
def Ctx.raiseAll (c : Ctx) (f : Option Nat) (ps : List Nat) : Ctx :=
  { c with
    flags := match f with
      | some n => setNth c.flags n (c.flag n + 1)
      | none => c.flags
    paths := ps.foldl (fun l n => setNth l n (l.getD n 0 + 1)) c.paths }

/-- The flag and counters fall by one. -/
def Ctx.lowerAll (c : Ctx) (f : Option Nat) (ps : List Nat) : Ctx :=
  { c with
    flags := match f with
      | some n => setNth c.flags n (c.flag n - 1)
      | none => c.flags
    paths := ps.foldl (fun l n => setNth l n (l.getD n 0 - 1)) c.paths }

/-- An operation is issued: its flag and counters rise (R59, R130, R147). -/
def Group.push (g : Group) (o : Op) : Group :=
  let o := { o with id := g.nextOp, level := g.mode.level }
  { g.setCtx (g.ctx.raiseAll o.flag o.paths) with ops := g.ops ++ [o], nextOp := g.nextOp + 1 }

/-- The operation with a number. -/
def Group.op? (g : Group) (n : Nat) : Option Op := g.ops.find? fun o => o.id == n
/-- The group with an operation replaced. -/
def Group.setOp (g : Group) (o : Op) : Group := { g with ops := g.ops.map fun x => if x.id == o.id then o else x }

/-- An operation has returned: its flag and counters fall (R59, R214), those of its handler entry while it lasts. -/
def Group.retire (g : Group) (o : Op) : Group :=
  let g := if o.orphan then g else g.setCtxOf o.level ((g.ctxOf o.level).lowerAll o.flag o.paths)
  { g with ops := g.ops.filter fun x => x.id != o.id }

/-- Only lanes parked on a page are left of the operation (R218). -/
def Op.parkedOnly (o : Op) : Bool :=
  o.parked != 0 &&
    (match o.work with
     | .mem _ _ accs => accs.all (·.performed)
     | _ => false)

/-- The bank of a byte (R68): a core store, a column bank, a scene-cache slice. How the slices of the scene cache and of the sample
buffer interleave the spec does not say; the model takes each 64-byte line as a slice of its own (log 123). -/
def bankOf (sp : Space) (key : Nat) : Nat :=
  match sp with
  | .core => key / 2 ^ 21
  | .bank => key / 2 ^ 22
  | _ => key / 64

/-- Two accesses reach a bank in common (R68). -/
def Acc.meets (a b : Acc) : Bool :=
  a.locs.any fun r => b.locs.any fun q =>
    match r.1, q.1 with
    | .mem s k, .mem t l => s == t && bankOf s k == bankOf t l
    | _, _ => false

/-- Two accesses touch a byte in common. -/
def Acc.touches (a b : Acc) : Bool :=
  a.locs.any fun r => b.locs.any fun q =>
    match r.1, q.1 with
    | .mem s k, .mem t l => s == t && decide (k < l + q.2) && decide (l < k + r.2)
    | _, _ => false

/-- Only lanes held for the commit token are left of the operation (R219). -/
def Op.heldOnly (x : Op) : Bool :=
  match x.work with
  | .mem _ _ xs => x.parked == 0 && xs.any (·.held) && xs.all fun a => a.performed || a.held
  | _ => false

/-- A memory operation: its accesses may be performed past held lanes of another bank (R68, R219). -/
def Work.isMem : Work → Bool
  | .mem .. => true
  | _ => false

/-- The turn of an operation to be performed: no earlier one of the group, of either mode, shares a path with it (R59, R68). Lanes
parked in one mode do not keep the other from going on, nor lanes held for the token an access of memory (R219). -/
def Group.turnOf (g : Group) (o : Op) : Bool :=
  g.ops.all fun x =>
    !(decide (x.id < o.id) && x.paths.any o.paths.contains && !(x.level != o.level && x.parkedOnly) &&
      !(x.heldOnly && o.work.isMem))

/-- The turn of an operation to return: counters fall in the order of issue on each path (R59, R214), those of each mode by
themselves where lanes of the other are parked. -/
def Group.returns (g : Group) (o : Op) : Bool :=
  g.ops.all fun x => !(decide (x.id < o.id) && x.paths.any o.paths.contains && !(x.level != o.level && x.parkedOnly))

/-- The accesses of an operation. -/
def Work.accs : Work → List Acc
  | .mem _ _ xs => xs
  | _ => []

/-- An access waits behind lanes held for the token: those of an earlier operation in the same bank (R68, R219), and a lower lane of
its own instruction that touches its bytes (R213). -/
def Group.blocked (g : Group) (o : Op) (a : Acc) : Bool :=
  (g.ops.any fun x => decide (x.id < o.id) && x.work.accs.any fun h => h.held && !h.performed && h.meets a) ||
  o.work.accs.any fun h => h.held && !h.performed && decide (h.lane < a.lane) && h.touches a

/-! ### Waits -/

/-- The lane-block queue is empty and the current lane block has completed (R162). -/
def Ctx.laneIdle (c : Ctx) : Bool := c.queue.isEmpty && !c.busy

/-- The five path counters are zero (R69). -/
def Ctx.pathsZero (c : Ctx) : Bool := c.paths.all (· == 0)
/-- Every completion flag is zero. -/
def Ctx.flagsZero (c : Ctx) : Bool := c.flags.all (· == 0)

/-- An operation on a path that the counters of the mode do not show: one of an ended handler entry, or, in handler mode, one
of the interrupted context. -/
def Group.hiddenPath (g : Group) (o : Op) : Bool := (o.orphan || (g.inHandler && o.level == 0)) && !o.paths.isEmpty

/-- The accesses for which a fence waits have returned: those of the mode's counters, those of ended handler entries, which
precede it in group order (R70), and in handler mode those of the interrupted context (R69). Held operations of a save, of
which the saved counters keep the increments, are not among them (R320). -/
def Group.pathsZeroAll (g : Group) : Bool := g.ctx.pathsZero && !(g.ops.any g.hiddenPath)

/-- A token draw (R266). -/
def Work.isTokenDraw : Work → Bool
  | .ddraw .. => true
  | _ => false

/-- A draw command: a token draw or a draw round (R266, R274). -/
def Work.isDraw : Work → Bool
  | .ddraw .. | .dpos .. => true
  | _ => false

/-- Matrix transfers of memory. -/
def Work.isTransfer : Work → Bool
  | .mtld .. => true
  | .mtst .. => true
  | _ => false
/-- Matrix operations (R249). -/
def Work.isMatrix : Work → Bool
  | .mma _ => true
  | .mzero .. => true
  | .mtld .. => true
  | .mtst .. => true
  | .mqt .. => true
  | _ => false
/-- Operations with stores that `opfence` waits for (R69). -/
def Work.isStore : Work → Bool
  | .mem .store _ _ => true
  | .mem (.atomic _) _ _ => true
  | .mtst .. => true
  | .vrowpk _ => true
  | _ => false

/-- `fence.rel` may complete, once the lane stream is idle: counters, transfers and forwarded records (R69). -/
def State.relDone (s : State) (g : Group) : Bool :=
  g.pathsZeroAll && !(g.ops.any fun o => o.work.isTransfer) && !(s.forwards.any fun f => f.group == g.uid)
/-- `opfence` may complete (R69). -/
def Group.opDone (g : Group) : Bool := !(g.ops.any fun o => o.work.isStore)
/-- `mwait` may complete: every matrix operation issued by the group, in either mode, has (R249). -/
def Group.matrixDone (g : Group) : Bool := !(g.ops.any fun o => o.work.isMatrix)
/-- Operations of a partner that target the group's tiles or segments (R249). -/
def State.partnerBusy (s : State) (g : Group) : Bool :=
  s.groups.any fun x => x.ops.any fun o =>
    match o.work with
    | .mma d => d.pair == some g.uid
    | _ => false

/-- The pending deferred fault earliest in issue order, if some pending one is of the kind asked for (R156, R217). Those of both
modes are pending for the group (R69, R249; log 124). -/
def Group.due (g : Group) (p : Deferred → Bool) : Option Deferred :=
  if g.deferred.any p then
    g.deferred.foldl (fun (m : Option Deferred) d =>
      match m with
      | some x => if x.op ≤ d.op then m else some d
      | none => some d) none
  else none

/-- A scalar instruction delivers a deferred fault where one is due, and acts otherwise. -/
def Group.delivering (g : Group) (p : Deferred → Bool) (k : Act) : Act :=
  match g.due p with
  | some d => .deliver d
  | none => k

/-- An instruction that observes what others have released waits as `fence.acq` (R69, R71); nothing is left to invalidate
(log 10). -/
def Group.asAcq (g : Group) (k : Act) : Act :=
  if !g.ctx.laneIdle then .wait 9 g else if !g.pathsZeroAll then .wait 8 g else k

/-- A deferred fault is one of an operation of the mode of the group that raised a flag of a list. -/
def Group.flagFault (g : Group) (fs : List Nat) (d : Deferred) : Bool := d.level == g.mode.level && fs.any fun f => d.flag == some f
/-- A deferred fault is one of an operation of the mode of the group that a path counter counts. -/
def Group.pathFault (g : Group) (p : Nat) (d : Deferred) : Bool := d.level == g.mode.level && d.paths.contains p

/-- An instruction that waits as `fence.rel` (R69): `lsync`, then the counters, then its deferred faults. -/
def State.asRel (s : State) (g : Group) (k : State × Act) (faults : Deferred → Bool := fun _ => true) : State × Act :=
  if !g.ctx.laneIdle then (s, .wait 9 g)
  else if !s.relDone g then (s, .wait 8 g)
  else
    match g.due faults with
    | some d => (s, .deliver d)
    | none => k

/-- The flags of a mask. -/
def flagMask (m : Nat) : List Nat := (List.range 12).filter fun i => bitAt m i

/-! ### Pending feeds -/

/-- The paths of a feed's lanes, where a path of the lanes `m` stands: what one lane stands behind, its whole path does (R67). -/
def Feed.spread (m : Word) (f : Feed) : Feed :=
  { f with past := if f.past &&& m = 0 then f.past else f.past ||| m, seen := if f.seen &&& m = 0 then f.seen else f.seen ||| m }

/-- A path of the lanes `m` observes flags at zero: an observation of a feed that precedes it in group order (R255). -/
def Feed.laneSees (m : Word) (fs : List Nat) (f : Feed) : Feed :=
  let f := f.spread m
  if fs.contains f.flag && f.past &&& m != 0 then { f with seen := f.seen ||| m } else f

/-- The scalar stream observes flags at zero with `q` lane blocks still to start, which no observation of its precedes (R67, R255). -/
def Feed.scalarSees (q : Nat) (fs : List Nat) (f : Feed) : Feed :=
  if fs.contains f.flag && f.pastS then { f with seenS := some (f.seenS.getD q) } else f

/-- A lane block starts behind every lane instruction of those before it, and behind what the scalar stream observed before it
enqueued the block (R18, R67). -/
def Feed.started (f : Feed) : Feed :=
  { f with
    past := if f.past = 0 then 0 else BitVec.allOnes 32
    seen := if f.seen != 0 || f.seenS == some 0 then BitVec.allOnes 32 else 0
    seenS := f.seenS.map (· - 1) }

/-- The scalar stream has waited for the lane stream: it stands behind what that has done (R67). -/
def Feed.joined (f : Feed) : Feed :=
  { f with pastS := f.past != 0, seenS := if f.seen != 0 then some 0 else f.seenS }

/-- Some stream stands behind no observation of the flag yet. -/
def Feed.isOpen (f : Feed) : Bool := f.seen != BitVec.allOnes 32 || f.seenS.isNone

/-- The feeds of the context change as told. A handler has none, and observes its own flags (R306). -/
def Group.mapFeeds (g : Group) (f : Feed → Feed) : Group :=
  if g.inHandler then g else { g with feeds := (g.feeds.map f).filter Feed.isOpen }

/-- The scalar stream has waited for the lane stream as `lsync` does (R67). -/
def Group.pastLanes (g : Group) : Group := g.mapFeeds Feed.joined

/-- Set-A or set-B of the clause, as the flag slot says (R130). -/
def LaneIn.flag (x : LaneIn) : Option Nat := if x.l.slot then x.p.setB else x.p.setA

end Sys2Proof.Machine
end

