-- ==== Sys2Proof/Machine/ScalarArith.lean ====
section
/-! DEFINITION. Scalar integer, logic, compare, predicate, move and immediate instructions (R149 to R154) and the
special registers (R41, R42). -/
namespace Sys2Proof.Machine

/-! ### Shapes -/

/-- A three-register instruction with a pair form. -/
def scalarBin (s : State) (d a b : Reg) (p : Bool) (f : Word → Word → Word) (h : DWord → DWord → DWord) :
    Host.Outcome State Fault Refusal :=
  issueScalar s [d.toNat, a.toNat, b.toNat] (reads := [a.toNat, b.toNat]) fun _ g =>
    if p then .pair (g.setU64 d.toNat (h (g.u64 a.toNat) (g.u64 b.toNat))) d.toNat
    else .adv (g.setU d.toNat (f (g.u a.toNat) (g.u b.toNat)))

/-- A three-register instruction without a pair form. -/
def scalarBin32 (s : State) (d a b : Reg) (f : Word → Word → Word) : Host.Outcome State Fault Refusal :=
  issueScalar s [d.toNat, a.toNat, b.toNat] (reads := [a.toNat, b.toNat]) fun _ g => .adv (g.setU d.toNat (f (g.u a.toNat) (g.u b.toNat)))

/-- A shift by a register: RESERVED_FIELD at execution for an amount of w or more (R107, R150). -/
def scalarShift (s : State) (d a b : Reg) (p : Bool) (f : Word → Nat → Word) (h : DWord → Nat → DWord) :
    Host.Outcome State Fault Refusal :=
  issueScalar s [d.toNat, a.toNat, b.toNat] (reads := [a.toNat, b.toNat]) fun _ g =>
    let n := (g.u b.toNat).toNat
    if (if p then 64 else 32) ≤ n then .fault .reservedField
    else if p then .pair (g.setU64 d.toNat (h (g.u64 a.toNat) n)) d.toNat
    else .adv (g.setU d.toNat (f (g.u a.toNat) n))

/-- A two-register instruction that counts bits (R150). -/
def scalarCount (s : State) (d a : Reg) (p : Bool) (f : Nat → Nat → Nat) : Host.Outcome State Fault Refusal :=
  issueScalar s [d.toNat, a.toNat] (reads := [a.toNat]) fun _ g =>
    if p then .pair (g.setU64 d.toNat (BitVec.ofNat 64 (f 64 (g.u64 a.toNat).toNat))) d.toNat
    else .adv (g.setU d.toNat (word (f 32 (g.u a.toNat).toNat)))

/-- A register and an immediate. -/
def scalarImm (s : State) (d a : Reg) (f : Word → Word) : Host.Outcome State Fault Refusal :=
  issueScalar s [d.toNat, a.toNat] (reads := [a.toNat]) fun _ g => .adv (g.setU d.toNat (f (g.u a.toNat)))

/-- An instruction on group predicates. -/
def scalarPred (s : State) (f : Ctx → Ctx) : Host.Outcome State Fault Refusal :=
  issueScalar s [] fun _ g => .adv (g.setCtx (f g.ctx))

/-! ### Arithmetic on words and pairs -/

/-- Leading zero bits of a number of `w` bits. -/
def leadingZeros (w v : Nat) : Nat := if v = 0 then w else w - 1 - Nat.log2 v
/-- Trailing zero bits. -/
def trailingZeros (w v : Nat) : Nat := ((List.range w).find? fun i => bitAt v i).getD w
/-- Set bits. -/
def setBits (w v : Nat) : Nat := (List.range w).countP fun i => bitAt v i
/-- The lesser of two values, signed. -/
def sMin {w : Nat} (x y : BitVec w) : BitVec w := if x.sle y then x else y
/-- The lesser, unsigned. -/
def nMin {w : Nat} (x y : BitVec w) : BitVec w := if x.ule y then x else y
/-- The greater, signed. -/
def sMax {w : Nat} (x y : BitVec w) : BitVec w := if x.sle y then y else x
/-- The greater, unsigned. -/
def nMax {w : Nat} (x y : BitVec w) : BitVec w := if x.ule y then y else x
/-- The signed quotient of R150. -/
def divS (a b : Word) : Word := if b = 0 then BitVec.allOnes 32 else a.sdiv b
/-- The unsigned quotient. -/
def divU (a b : Word) : Word := if b = 0 then BitVec.allOnes 32 else a.udiv b
/-- The signed remainder. -/
def remS (a b : Word) : Word := if b = 0 then a else a.srem b
/-- The unsigned remainder. -/
def remU (a b : Word) : Word := if b = 0 then a else a.umod b
/-- The high word of a product of integers. -/
def highWord (v : Int) : Word := BitVec.ofInt 32 (v / 2 ^ 32)

/-! ### The instructions of R149 -/

/-- `add`. -/
def execAdd (d a b : Reg) (p : Bool) (s : State) : Host.Outcome State Fault Refusal :=
  scalarBin s d a b p (· + ·) (· + ·)
/-- `sub`. -/
def execSub (d a b : Reg) (p : Bool) (s : State) : Host.Outcome State Fault Refusal :=
  scalarBin s d a b p (· - ·) (· - ·)
/-- `mul`. -/
def execMul (d a b : Reg) (p : Bool) (s : State) : Host.Outcome State Fault Refusal :=
  scalarBin s d a b p (· * ·) (· * ·)
/-- `mulh`. -/
def execMulh (d a b : Reg) (s : State) : Host.Outcome State Fault Refusal :=
  scalarBin32 s d a b fun x y => highWord (x.toInt * y.toInt)
/-- `mulhn`. -/
def execMulhn (d a b : Reg) (s : State) : Host.Outcome State Fault Refusal :=
  scalarBin32 s d a b fun x y => highWord (x.toNat * y.toNat : Nat)
/-- `divi`. -/
def execDivi (d a b : Reg) (s : State) : Host.Outcome State Fault Refusal := scalarBin32 s d a b divS
/-- `divn`. -/
def execDivn (d a b : Reg) (s : State) : Host.Outcome State Fault Refusal := scalarBin32 s d a b divU
/-- `remi`. -/
def execRemi (d a b : Reg) (s : State) : Host.Outcome State Fault Refusal := scalarBin32 s d a b remS
/-- `remn`. -/
def execRemn (d a b : Reg) (s : State) : Host.Outcome State Fault Refusal := scalarBin32 s d a b remU
/-- `and`. -/
def execAnd (d a b : Reg) (p : Bool) (s : State) : Host.Outcome State Fault Refusal :=
  scalarBin s d a b p (· &&& ·) (· &&& ·)
/-- `or`. -/
def execOr (d a b : Reg) (p : Bool) (s : State) : Host.Outcome State Fault Refusal :=
  scalarBin s d a b p (· ||| ·) (· ||| ·)
/-- `xor`. -/
def execXor (d a b : Reg) (p : Bool) (s : State) : Host.Outcome State Fault Refusal :=
  scalarBin s d a b p (· ^^^ ·) (· ^^^ ·)
/-- `andn`. -/
def execAndn (d a b : Reg) (p : Bool) (s : State) : Host.Outcome State Fault Refusal :=
  scalarBin s d a b p (fun x y => x &&& ~~~y) (fun x y => x &&& ~~~y)
/-- `shl`. -/
def execShl (d a b : Reg) (p : Bool) (s : State) : Host.Outcome State Fault Refusal :=
  scalarShift s d a b p (· <<< ·) (· <<< ·)
/-- `shr`. -/
def execShr (d a b : Reg) (p : Bool) (s : State) : Host.Outcome State Fault Refusal :=
  scalarShift s d a b p (· >>> ·) (· >>> ·)
/-- `sar`. -/
def execSar (d a b : Reg) (p : Bool) (s : State) : Host.Outcome State Fault Refusal :=
  scalarShift s d a b p BitVec.sshiftRight BitVec.sshiftRight
/-- `rotl`. -/
def execRotl (d a b : Reg) (p : Bool) (s : State) : Host.Outcome State Fault Refusal :=
  scalarShift s d a b p BitVec.rotateLeft BitVec.rotateLeft
/-- `min`. -/
def execMin (d a b : Reg) (p : Bool) (s : State) : Host.Outcome State Fault Refusal := scalarBin s d a b p sMin sMin
/-- `minn`. -/
def execMinn (d a b : Reg) (p : Bool) (s : State) : Host.Outcome State Fault Refusal := scalarBin s d a b p nMin nMin
/-- `max`. -/
def execMax (d a b : Reg) (p : Bool) (s : State) : Host.Outcome State Fault Refusal := scalarBin s d a b p sMax sMax
/-- `maxn`. -/
def execMaxn (d a b : Reg) (p : Bool) (s : State) : Host.Outcome State Fault Refusal := scalarBin s d a b p nMax nMax
/-- `clz`. -/
def execClz (d a : Reg) (p : Bool) (s : State) : Host.Outcome State Fault Refusal := scalarCount s d a p leadingZeros
/-- `ctz`. -/
def execCtz (d a : Reg) (p : Bool) (s : State) : Host.Outcome State Fault Refusal := scalarCount s d a p trailingZeros
/-- `popc`. -/
def execPopc (d a : Reg) (p : Bool) (s : State) : Host.Outcome State Fault Refusal := scalarCount s d a p setBits

/-- The width that `sext` and `zext` name (R150). -/
def extWidth (n : BitVec 2) : Nat := 8 * 2 ^ n.toNat

/-- `sext`. -/
def execSext (d a : Reg) (p : Bool) (n : BitVec 2) (s : State) : Host.Outcome State Fault Refusal :=
  issueScalar s [d.toNat, a.toNat] (reads := [a.toNat]) fun _ g =>
    let v := signed (extWidth n) (g.u a.toNat).toNat
    if p then .pair (g.setU64 d.toNat (BitVec.ofInt 64 v)) d.toNat else .adv (g.setU d.toNat (BitVec.ofInt 32 v))
/-- `zext`. -/
def execZext (d a : Reg) (p : Bool) (n : BitVec 2) (s : State) : Host.Outcome State Fault Refusal :=
  issueScalar s [d.toNat, a.toNat] (reads := [a.toNat]) fun _ g =>
    let v := (g.u a.toNat).toNat % 2 ^ extWidth n
    if p then .pair (g.setU64 d.toNat (BitVec.ofNat 64 v)) d.toNat else .adv (g.setU d.toNat (word v))

/-! ### Compares, predicates, select -/

/-- `cmp` (R151). -/
def execCmp (q : QReg) (a b : Reg) (k : BitVec 4) (s : State) : Host.Outcome State Fault Refusal :=
  issueScalar s [a.toNat, b.toNat] fun _ g =>
    .adv (g.setCtx (g.ctx.qset q.toNat (condHolds k.toNat (g.u a.toNat) (g.u b.toNat))))
/-- `cmpi`: the immediate is sign-extended for every condition (R106, R151). -/
def execCmpi (k : BitVec 4) (q : QReg) (a : Reg) (i : BitVec 11) (s : State) : Host.Outcome State Fault Refusal :=
  issueScalar s [a.toNat] fun _ g =>
    .adv (g.setCtx (g.ctx.qset q.toNat (condHolds k.toNat (g.u a.toNat) (i.signExtend 32))))
/-- `qand` (R152). -/
def execQand (d a b : QReg) (s : State) : Host.Outcome State Fault Refusal :=
  scalarPred s fun c => c.qset d.toNat (c.qget a.toNat && c.qget b.toNat)
/-- `qor`. -/
def execQor (d a b : QReg) (s : State) : Host.Outcome State Fault Refusal :=
  scalarPred s fun c => c.qset d.toNat (c.qget a.toNat || c.qget b.toNat)
/-- `qxor`. -/
def execQxor (d a b : QReg) (s : State) : Host.Outcome State Fault Refusal :=
  scalarPred s fun c => c.qset d.toNat (c.qget a.toNat != c.qget b.toNat)
/-- `qandn`. -/
def execQandn (d a b : QReg) (s : State) : Host.Outcome State Fault Refusal :=
  scalarPred s fun c => c.qset d.toNat (c.qget a.toNat && !c.qget b.toNat)
/-- `qnot`. -/
def execQnot (d a : QReg) (s : State) : Host.Outcome State Fault Refusal :=
  scalarPred s fun c => c.qset d.toNat (!c.qget a.toNat)
/-- `qget`: bit 7 reads 1. -/
def execQget (d : Reg) (s : State) : Host.Outcome State Fault Refusal :=
  issueScalar s [d.toNat] (reads := []) fun _ g => .adv (g.setU d.toNat ((1#1 ++ g.ctx.q).setWidth 32))
/-- `qset`. -/
def execQset (a : Reg) (s : State) : Host.Outcome State Fault Refusal :=
  issueScalar s [a.toNat] fun _ g => .adv (g.setCtx { g.ctx with q := (g.u a.toNat).setWidth 7 })
/-- `sel` (R153). -/
def execSel (d a b : Reg) (p : Bool) (q : QReg) (s : State) : Host.Outcome State Fault Refusal :=
  issueScalar s [d.toNat, a.toNat, b.toNat] (reads := [a.toNat, b.toNat]) fun _ g =>
    let r := if g.ctx.qget q.toNat then a.toNat else b.toNat
    if p then .pair (g.setU64 d.toNat (g.u64 r)) d.toNat else .adv (g.setU d.toNat (g.u r))

/-! ### Special registers -/

/-- `srd`: the value, and the latch that a low read sets (R41, R42). -/
def State.srdValue (s : State) (g : Group) (n : Nat) : Option (Word × Group) :=
  let k := s.gridOf g
  match n with
  | 0x0F => some (word s.stime, { g with stimeHi := word (s.stime / 2 ^ 32) })
  | 0x10 => some (g.stimeHi, g)
  | 0x11 => some (word s.clk, { g with clkHi := word (s.clk / 2 ^ 32) })
  | 0x12 => some (g.clkHi, g)
  | 0x14 => some (if k.cls < 2 then loWord k.deadline else 0, g)
  | 0x15 => some (if k.cls < 2 then hiWord k.deadline else 0, g)
  | 0x1C => some (word (g.ctx.s0.length + g.ctx.s1.length), g)
  | _ => (s.sreg g n).map fun v => (word v, g)

/-! ### Moves and immediates -/

/-- `mov` (R154). -/
def execMov (d a : Reg) (p : Bool) (s : State) : Host.Outcome State Fault Refusal :=
  issueScalar s [d.toNat, a.toNat] (reads := [a.toNat]) fun _ g =>
    if p then .pair (g.setU64 d.toNat (g.u64 a.toNat)) d.toNat else .adv (g.setU d.toNat (g.u a.toNat))
/-- `srd`. A number that R41 does not give to the stream takes RESERVED_FIELD, which precedes REGISTER_RANGE (R137). -/
def execSrd (d : Reg) (i : BitVec 11) (s : State) : Host.Outcome State Fault Refusal :=
  issueScalar s [] fun s g =>
    match s.srdValue g i.toNat with
    | none => .fault .reservedField
    | some (v, g') => if g.ulimit ≤ d.toNat then .trap .registerRange (word d.toNat) 0 else .adv (g'.setU d.toNat v)
/-- `addi`. -/
def execAddi (d a : Reg) (i : BitVec 11) (s : State) : Host.Outcome State Fault Refusal :=
  scalarImm s d a fun x => x + i.signExtend 32
/-- `andi`. -/
def execAndi (d a : Reg) (i : BitVec 11) (s : State) : Host.Outcome State Fault Refusal :=
  scalarImm s d a fun x => x &&& i.setWidth 32
/-- `ori`. -/
def execOri (d a : Reg) (i : BitVec 11) (s : State) : Host.Outcome State Fault Refusal :=
  scalarImm s d a fun x => x ||| i.setWidth 32
/-- `xori`. -/
def execXori (d a : Reg) (i : BitVec 11) (s : State) : Host.Outcome State Fault Refusal :=
  scalarImm s d a fun x => x ^^^ i.setWidth 32
/-- `shli`. -/
def execShli (d a : Reg) (i : BitVec 5) (s : State) : Host.Outcome State Fault Refusal :=
  scalarImm s d a fun x => x <<< i.toNat
/-- `shri`. -/
def execShri (d a : Reg) (i : BitVec 5) (s : State) : Host.Outcome State Fault Refusal :=
  scalarImm s d a fun x => x >>> i.toNat
/-- `sari`. -/
def execSari (d a : Reg) (i : BitVec 5) (s : State) : Host.Outcome State Fault Refusal :=
  scalarImm s d a fun x => x.sshiftRight i.toNat
/-- `movi` (R108). -/
def execMovi (d : Reg) (i : BitVec 16) (s : State) : Host.Outcome State Fault Refusal :=
  issueScalar s [d.toNat] (reads := []) fun _ g => .adv (g.setU d.toNat (i.signExtend 32))
/-- `movhi`. -/
def execMovhi (d : Reg) (i : BitVec 16) (s : State) : Host.Outcome State Fault Refusal :=
  issueScalar s [d.toNat] fun _ g => .adv (g.setU d.toNat (i ++ (g.u d.toNat).setWidth 16))
/-- `gmov` over g0 to g511 (R154). -/
def execGmov (d a : BitVec 9) (s : State) : Host.Outcome State Fault Refusal :=
  issueScalar s [d.toNat, a.toNat] (reads := [a.toNat]) fun _ g => .adv (g.setU d.toNat (g.u a.toNat))

end Sys2Proof.Machine
end

