-- ==== Sys2Proof/Machine/LaneInt.lean ====
section
/-! DEFINITION. Lane integer, logic, compare, predicate and select instructions (R180 to R185). -/
namespace Sys2Proof.Machine

/-! ### Elements -/

/-- Bits of an element (R91, R93). -/
def elemBits (t : Ty) : Nat := if t.regs = 2 then 64 else 32 / t.elems
/-- The type reads its elements as two's complement. -/
def signedTy : Ty → Bool
  | .i32 | .i16x2 | .i8x4 | .i64 => true
  | _ => false
/-- An element as an integer of its type. -/
def elemInt (t : Ty) (v : Nat) : Int := if signedTy t then signed (elemBits t) v else (v % 2 ^ elemBits t : Nat)

/-- An integer operation on each element of a value of the type, written modulo 2^w (R176, R180). -/
def elementwise (t : Ty) (f : Int → Int → Int → Int) (a b c : Nat) : Nat :=
  let w := elemBits t
  (List.range t.elems).foldl (fun r i =>
    let e := fun (v : Nat) => elemInt t (v / 2 ^ (w * i))
    r + (f (e a) (e b) (e c) % (2 ^ w : Nat)).toNat * 2 ^ (w * i)) 0

/-- Latency of the integer and logic class (R130). -/
def latInt : Nat := 4

/-- A value as a number: 64 bits for the pair types. -/
def Val.nat (v : Val) (t : Ty) (l : Nat) : Nat := if t.regs = 2 then (v.wide l).toNat else (lane v.lo l).toNat

/-- A number computed in each lane from the numbers of the operands. -/
def LaneIn.nat3 (x : LaneIn) (f : Nat → Nat → Nat → Nat) : LAct :=
  x.mapWide latInt fun l => BitVec.ofNat 64 (f (x.a.nat x.l.ty l) (x.b.nat x.l.ty l) (x.c.nat x.l.ty l))

/-- An operation on elements. -/
def LaneIn.elems (x : LaneIn) (f : Int → Int → Int → Int) : LAct := x.nat3 (elementwise x.l.ty f)

/-! ### Integer and logic -/

/-- `vadd`. -/
def execVadd (l : LaneOp) (s : State) : Host.Outcome State Fault Refusal :=
  issueLane s (.vadd l) fun x => x.elems fun a b _ => a + b
/-- `vsub`. -/
def execVsub (l : LaneOp) (s : State) : Host.Outcome State Fault Refusal :=
  issueLane s (.vsub l) fun x => x.elems fun a b _ => a - b
/-- `vmul`. -/
def execVmul (l : LaneOp) (s : State) : Host.Outcome State Fault Refusal :=
  issueLane s (.vmul l) fun x => x.elems fun a b _ => a * b
/-- `vmulh`: bits 2w − 1 to w of the exact product. -/
def execVmulh (l : LaneOp) (s : State) : Host.Outcome State Fault Refusal :=
  issueLane s (.vmulh l) fun x => x.elems fun a b _ => (a * b).fdiv (2 ^ elemBits l.ty : Nat)
/-- `vmad`. -/
def execVmad (l : LaneOp) (s : State) : Host.Outcome State Fault Refusal :=
  issueLane s (.vmad l) fun x => x.elems fun a b c => a * b + c
/-- The sign bits of a floating type. -/
def signBits (t : Ty) : Nat := (List.range t.elems).foldl (fun r i => r + 2 ^ (elemBits t * i + elemBits t - 1)) 0
/-- `vabs`: on a floating type the sign bits are cleared. -/
def execVabs (l : LaneOp) (s : State) : Host.Outcome State Fault Refusal :=
  issueLane s (.vabs l) fun x =>
    if l.ty.setG then x.nat3 fun a _ _ => Nat.land a (2 ^ 32 - 1 - signBits l.ty)
    else x.elems fun a _ _ => if a < 0 then -a else a
/-- `vneg`: on a floating type the sign bits are inverted. -/
def execVneg (l : LaneOp) (s : State) : Host.Outcome State Fault Refusal :=
  issueLane s (.vneg l) fun x =>
    if l.ty.setG then x.nat3 fun a _ _ => Nat.xor a (signBits l.ty) else x.elems fun a _ _ => -a
/-- `vmin`. -/
def execVmin (l : LaneOp) (s : State) : Host.Outcome State Fault Refusal :=
  issueLane s (.vmin l) fun x => x.elems fun a b _ => min a b
/-- `vmax`. -/
def execVmax (l : LaneOp) (s : State) : Host.Outcome State Fault Refusal :=
  issueLane s (.vmax l) fun x => x.elems fun a b _ => max a b
/-- `vand`. -/
def execVand (l : LaneOp) (s : State) : Host.Outcome State Fault Refusal :=
  issueLane s (.vand l) fun x => x.nat3 fun a b _ => Nat.land a b
/-- `vor`. -/
def execVor (l : LaneOp) (s : State) : Host.Outcome State Fault Refusal :=
  issueLane s (.vor l) fun x => x.nat3 fun a b _ => Nat.lor a b
/-- `vxor`. -/
def execVxor (l : LaneOp) (s : State) : Host.Outcome State Fault Refusal :=
  issueLane s (.vxor l) fun x => x.nat3 fun a b _ => Nat.xor a b
/-- Every bit of a number of 64 bits inverted. -/
def notNat (v : Nat) : Nat := 2 ^ 64 - 1 - v % 2 ^ 64
/-- `vnot`. -/
def execVnot (l : LaneOp) (s : State) : Host.Outcome State Fault Refusal :=
  issueLane s (.vnot l) fun x => x.nat3 fun a _ _ => notNat a
/-- `vandn`. -/
def execVandn (l : LaneOp) (s : State) : Host.Outcome State Fault Refusal :=
  issueLane s (.vandn l) fun x => x.nat3 fun a b _ => Nat.land a (notNat b)

/-- A shift by the amount of R181: operand b modulo the width. -/
def LaneIn.shift (x : LaneIn) (f : Nat → Nat → Nat → Nat) : LAct :=
  let w := elemBits x.l.ty
  x.mapWide latInt fun l => BitVec.ofNat 64 (f w (x.a.nat x.l.ty l) ((lane x.b.lo l).toNat % w))
/-- `vshl`. -/
def execVshl (l : LaneOp) (s : State) : Host.Outcome State Fault Refusal :=
  issueLane s (.vshl l) fun x => x.shift fun _ a n => a * 2 ^ n
/-- `vshr`. -/
def execVshr (l : LaneOp) (s : State) : Host.Outcome State Fault Refusal :=
  issueLane s (.vshr l) fun x => x.shift fun _ a n => a / 2 ^ n
/-- `vsar`. -/
def execVsar (l : LaneOp) (s : State) : Host.Outcome State Fault Refusal :=
  issueLane s (.vsar l) fun x => x.shift fun w a n => ((signed w a).fdiv (2 ^ n : Nat) % (2 ^ w : Nat)).toNat
/-- `vrotl`. -/
def execVrotl (l : LaneOp) (s : State) : Host.Outcome State Fault Refusal :=
  issueLane s (.vrotl l) fun x => x.shift fun w a n => a * 2 ^ n + a / 2 ^ (w - n)

/-- A word with its bits in reverse order. -/
def reverseBits (a : Nat) : Nat := (List.range 32).foldl (fun r i => r + (bitAt a (31 - i)).toNat * 2 ^ i) 0
/-- `vclz`. -/
def execVclz (l : LaneOp) (s : State) : Host.Outcome State Fault Refusal :=
  issueLane s (.vclz l) fun x => x.nat3 fun a _ _ => leadingZeros 32 a
/-- `vpopc`. -/
def execVpopc (l : LaneOp) (s : State) : Host.Outcome State Fault Refusal :=
  issueLane s (.vpopc l) fun x => x.nat3 fun a _ _ => setBits 32 a
/-- `vbrev`. -/
def execVbrev (l : LaneOp) (s : State) : Host.Outcome State Fault Refusal :=
  issueLane s (.vbrev l) fun x => x.nat3 fun a _ _ => reverseBits a

/-- Offset and length of a field (R182). -/
def fieldOf (b : Nat) : Nat × Nat := (b % 32, min (bits b 13 8) (32 - b % 32))
/-- `vbfe` (R182). -/
def execVbfe (l : LaneOp) (s : State) : Host.Outcome State Fault Refusal :=
  issueLane s (.vbfe l) fun x => x.nat3 fun a b _ =>
    let f := fieldOf b
    let v := a / 2 ^ f.1 % 2 ^ f.2
    if l.ty = .i32 && 0 < f.2 then (signed f.2 v % (2 ^ 32 : Nat)).toNat else v
/-- `vbfi` (R182). -/
def execVbfi (l : LaneOp) (s : State) : Host.Outcome State Fault Refusal :=
  issueLane s (.vbfi l) fun x => x.nat3 fun a b c =>
    let f := fieldOf b
    c % 2 ^ f.1 + a % 2 ^ f.2 * 2 ^ f.1 + c / 2 ^ (f.1 + f.2) * 2 ^ (f.1 + f.2)

/-- A sum or difference with the predicate that holds its carry or borrow (R182). -/
def LaneIn.carry (x : LaneIn) (f : Int → Int → Int → Int) : LAct :=
  let k := x.l.vc.toNat
  let v := fun (l : Nat) => f (lane x.a.lo l).toNat (lane x.b.lo l).toNat (x.g.ctx.pget k l).toNat
  x.write [x.vec latInt x.l.vd.toNat ((List.range 32).map fun l => BitVec.ofInt 32 (v l)),
    x.pred latInt k fun l => decide (v l < 0) || decide (2 ^ 32 ≤ v l)]
/-- `vaddc`. -/
def execVaddc (l : LaneOp) (s : State) : Host.Outcome State Fault Refusal :=
  issueLane s (.vaddc l) fun x => x.carry fun a b c => a + b + c
/-- `vsubb`. -/
def execVsubb (l : LaneOp) (s : State) : Host.Outcome State Fault Refusal :=
  issueLane s (.vsubb l) fun x => x.carry fun a b c => a - b - c

/-- The 32-bit accumulator c and a sum over the elements of a and b. -/
def LaneIn.dot (x : LaneIn) (f : Int → Int → Int) : LAct :=
  let t := x.l.ty
  x.map32 latInt fun l =>
    let e := fun (v : Lanes) (i : Nat) => elemInt t ((lane v l).toNat / 2 ^ (elemBits t * i))
    BitVec.ofInt 32 ((List.range t.elems).foldl (fun r i => r + f (e x.a.lo i) (e x.b.lo i)) ((lane x.c.lo l).toNat : Int))
/-- `vsad`. -/
def execVsad (l : LaneOp) (s : State) : Host.Outcome State Fault Refusal :=
  issueLane s (.vsad l) fun x => x.dot fun a b => if a < b then b - a else a - b
/-- `vdp4`. -/
def execVdp4 (l : LaneOp) (s : State) : Host.Outcome State Fault Refusal :=
  issueLane s (.vdp4 l) fun x => x.dot fun a b => a * b

/-! ### Compare, predicates, select -/

/-- `vcmp` (R183). -/
def execVcmp (l : LaneOp) (s : State) : Host.Outcome State Fault Refusal :=
  issueLane s (.vcmp l) fun x => x.write [x.pred latInt l.vd.toNat fun n =>
    condInt l.vc.toNat (elemInt l.ty (x.a.nat l.ty n)) (elemInt l.ty (x.b.nat l.ty n))]

/-- `vpop` (R184). -/
def execVpop (l : LaneOp) (s : State) : Host.Outcome State Fault Refusal :=
  issueLane s (.vpop l) fun x =>
    let c := x.g.ctx
    let pa := fun n => c.pget l.va.toNat n
    let pb := fun n => c.pget l.vb.toNat n
    let d := l.vd.toNat
    match l.vc.toNat with
    | 0 => x.write [x.pred latInt d fun n => pa n && pb n]
    | 1 => x.write [x.pred latInt d fun n => pa n || pb n]
    | 2 => x.write [x.pred latInt d fun n => pa n != pb n]
    | 3 => x.write [x.pred latInt d fun n => pa n && !pb n]
    | 4 => x.write [x.pred latInt d fun n => !pa n]
    | 5 => x.map32 latInt fun n => word ((c.predBits n).toNat + 128)
    | _ => x.write ((List.range 7).map fun k => x.pred latInt k fun n => (lane x.a.lo n).getLsbD k)

end Sys2Proof.Machine
end

