-- ==== Sys2Proof/Machine/Float.lean ====
section
/-! DEFINITION. Number formats and rounding: the floating formats (R93 to R95), the four rounding modes (R96 to R98),
zero signs (R100), NaN causes (R102, R103), exact sums and products, conversions (R105) and packed elements (R92). -/
namespace Sys2Proof.Machine

/-! ### Packed elements -/

/-- Element `i` of width `w` of a word (R92). -/
def elem (w : Nat) (x : Word) (i : Nat) : Nat := x.toNat / 2 ^ (w * i) % 2 ^ w
/-- The word whose elements of width `w` are given. -/
def ofElems (w : Nat) (f : Nat → Nat) : Word :=
  word ((List.range (32 / w)).foldl (fun r i => r + f i % 2 ^ w * 2 ^ (w * i)) 0)
/-- The word with one element replaced. -/
def setElem (w : Nat) (x : Word) (i v : Nat) : Word := ofElems w fun j => if j = i then v else elem w x j

/-! ### Formats -/

/-- A floating format: its width, fraction bits, bias, and whether it has infinities. -/
structure Fmt where
  width : Nat
  frac  : Nat
  bias  : Nat
  inf   : Bool := true
  deriving DecidableEq, Repr, Inhabited

/-- FP32 (R93). -/
def fp32 : Fmt := { width := 32, frac := 23, bias := 127 }
/-- FP16. -/
def fp16 : Fmt := { width := 16, frac := 10, bias := 15 }
/-- BF16. -/
def bf16 : Fmt := { width := 16, frac := 7, bias := 127 }
/-- E4M3. -/
def e4m3 : Fmt := { width := 8, frac := 3, bias := 7, inf := false }
/-- E5M2. -/
def e5m2 : Fmt := { width := 8, frac := 2, bias := 15 }
/-- E2M1. -/
def e2m1 : Fmt := { width := 4, frac := 1, bias := 1, inf := false }

/-- The format of a floating type. -/
def fmtOf : Ty → Fmt
  | .f16x2 => fp16
  | .bf16x2 => bf16
  | .e4m3x4 => e4m3
  | .e5m2x4 => e5m2
  | .e2m1x8 => e2m1
  | _ => fp32

/-- The all-ones exponent field, in place. -/
def Fmt.top (f : Fmt) : Nat := (2 ^ (f.width - 1 - f.frac) - 1) * 2 ^ f.frac
/-- The magnitude bits of the largest finite value (R93, R94). -/
def Fmt.maxMag (f : Fmt) : Nat := if f.inf then f.top - 1 else if f.width = 8 then 0x7E else 7
/-- The sign bit. -/
def Fmt.sign (f : Fmt) (neg : Bool) : Nat := if neg then 2 ^ (f.width - 1) else 0
/-- The magnitude bits of a pattern. -/
def Fmt.mag (f : Fmt) (v : Nat) : Nat := v % 2 ^ (f.width - 1)
/-- The sign of a pattern. -/
def Fmt.neg (f : Fmt) (v : Nat) : Bool := bitAt v (f.width - 1)
/-- The pattern is a NaN (R93, R94). -/
def Fmt.isNan (f : Fmt) (v : Nat) : Bool :=
  if f.inf then f.top < f.mag v else f.width == 8 && f.mag v == 0x7F
/-- The canonical NaN with a cause (R103); E2M1 has none and takes +0 (R105). -/
def Fmt.nan (f : Fmt) (c : Nat) : Nat :=
  if f.inf then f.top + 2 ^ (f.frac - 1) + (if f.frac = 2 then c % 2 else c)
  else if f.width = 8 then 0x7F else 0
/-- An infinity, or the largest finite value of a format without one. -/
def Fmt.infBits (f : Fmt) (neg : Bool) : Nat := f.sign neg + (if f.inf then f.top else f.maxMag)

/-- A number: (−1)^neg · m · 2^e, an infinity, or a NaN with its cause. -/
inductive Num where
  | fin (neg : Bool) (m : Nat) (e : Int)
  | inf (neg : Bool)
  | nan (cause : Nat)
  deriving DecidableEq, Repr, Inhabited

/-- The number that a pattern holds (R93). A NaN is a NaN operand: cause 1. -/
def Fmt.num (f : Fmt) (v : Nat) : Num :=
  let m := f.mag v
  if f.isNan v then .nan 1
  else if f.inf && m == f.top then .inf (f.neg v)
  else
    let e := m / 2 ^ f.frac
    if e = 0 then .fin (f.neg v) m (1 - (f.bias : Int) - f.frac)
    else .fin (f.neg v) (m % 2 ^ f.frac + 2 ^ f.frac) ((e : Int) - f.bias - f.frac)

/-! ### Rounding -/

/-- A quotient `m / 2^k` rounded to an integer under a mode of R96, for a magnitude of the given sign. -/
def roundShift (rnd : Nat) (neg : Bool) (m k : Nat) : Nat :=
  let q := m / 2 ^ k
  let r := m % 2 ^ k
  let up :=
    match rnd with
    | 0 => decide (2 ^ k < 2 * r) || (decide (2 ^ k = 2 * r) && q % 2 == 1)
    | 1 => false
    | 2 => !neg && r != 0
    | _ => neg && r != 0
  if up then q + 1 else q

/-- What an overflow becomes (R98). -/
def Fmt.overflow (f : Fmt) (rnd : Nat) (neg : Bool) : Nat :=
  let toInf :=
    match rnd with
    | 0 => true
    | 1 => false
    | 2 => !neg
    | _ => neg
  if toInf then f.infBits neg else f.sign neg + f.maxMag

/-- The pattern of (−1)^neg · m · 2^e rounded once (R97, R98). With `more`, the exact magnitude lies strictly between
m · 2^e and (m + 1) · 2^e; `m` then has at least two bits more than the format. -/
def Fmt.round (f : Fmt) (rnd : Nat) (neg : Bool) (m : Nat) (e : Int) (more : Bool := false) : Nat :=
  let m := 2 * m + more.toNat
  let e := e - 1
  if m = 0 then f.sign neg
  else
    let low : Int := 1 - (f.bias : Int) - f.frac
    let q := max (e + Nat.log2 m - f.frac) low
    let n := if q ≤ e then m * 2 ^ (e - q).toNat else roundShift rnd neg m (q - e).toNat
    let v := (q - low).toNat * 2 ^ f.frac + n
    if v ≤ f.maxMag then f.sign neg + v else f.overflow rnd neg

/-- The pattern of a number (R97, R98, R102, R103). -/
def Fmt.pack (f : Fmt) (rnd : Nat) : Num → Nat
  | .fin neg m e => f.round rnd neg m e
  | .inf neg => f.infBits neg
  | .nan c => f.nan c

/-! ### Exact arithmetic -/

/-- The first cause that applies (R102). -/
def firstCause (cs : List Nat) : Option Nat := [1, 2, 4, 3, 5].find? cs.contains

/-- The causes of the NaNs among numbers. -/
def causes (xs : List Num) : List Nat := xs.filterMap fun x => match x with | .nan c => some c | _ => none

/-- The product (R100, R102). -/
def Num.mul (x y : Num) : Num :=
  match firstCause (causes [x, y]) with
  | some c => .nan c
  | none =>
    match x, y with
    | .fin s m e, .fin t n d => .fin (s != t) (m * n) (e + d)
    | .fin s m _, .inf t => if m = 0 then .nan 4 else .inf (s != t)
    | .inf s, .fin t n _ => if n = 0 then .nan 4 else .inf (s != t)
    | .inf s, .inf t => .inf (s != t)
    | x, _ => x

/-- The negation. -/
def Num.negate : Num → Num
  | .fin s m e => .fin (!s) m e
  | .inf s => .inf (!s)
  | .nan c => .nan c

/-- A finite number as an integer multiple of 2^lo. -/
def Num.scaled (lo : Int) : Num → Int
  | .fin s m e => let v := ((m * 2 ^ (e - lo).toNat : Nat) : Int); if s then -v else v
  | _ => 0

/-- The exponent of a finite number. -/
def Num.exp : Num → Int
  | .fin _ _ e => e
  | _ => 0

/-- A finite zero of a sign. -/
def Num.isZero (neg : Bool) : Num → Bool
  | .fin s m _ => m == 0 && s == neg
  | _ => false

/-- An infinity of a sign. -/
def Num.isInf (neg : Bool) : Num → Bool
  | .inf s => s == neg
  | _ => false

/-- The exact sum of numbers. The sign of an exact zero is that of R100: `down` is the mode `.rd` (R100, R102). -/
def Num.sum (down : Bool) (xs : List Num) : Num :=
  match firstCause (causes xs) with
  | some c => .nan c
  | none =>
    let p := xs.any (Num.isInf false)
    let n := xs.any (Num.isInf true)
    if p && n then .nan 3
    else if p then .inf false
    else if n then .inf true
    else
      let lo : Int := xs.foldl (fun (m : Int) x => min m x.exp) 0
      let v : Int := xs.foldl (fun (t : Int) x => t + x.scaled lo) 0
      if v = 0 then
        .fin (if xs.isEmpty then false
              else if xs.all (Num.isZero true) then true
              else if xs.all (Num.isZero false) then false else down) 0 0
      else .fin (decide (v < 0)) v.natAbs lo

/-- The sum of two numbers. -/
def Num.add (down : Bool) (x y : Num) : Num := Num.sum down [x, y]

/-- The rounding mode `.rd`. -/
def isDown (rnd : Nat) : Bool := rnd == 3

/-! ### Elementwise operations -/

/-- a + b (R186). -/
def Fmt.add (f : Fmt) (rnd a b : Nat) : Nat := f.pack rnd (Num.add (isDown rnd) (f.num a) (f.num b))
/-- a − b. -/
def Fmt.sub (f : Fmt) (rnd a b : Nat) : Nat := f.pack rnd (Num.add (isDown rnd) (f.num a) (f.num b).negate)
/-- a·b. -/
def Fmt.mul (f : Fmt) (rnd a b : Nat) : Nat := f.pack rnd (Num.mul (f.num a) (f.num b))
/-- a·b + c, rounded once. -/
def Fmt.fma (f : Fmt) (rnd a b c : Nat) : Nat :=
  f.pack rnd (Num.add (isDown rnd) (Num.mul (f.num a) (f.num b)) (f.num c))

/-- A total order of the patterns that are no NaN: −0 lies below +0 (R187). -/
def Fmt.key (f : Fmt) (v : Nat) : Int := if f.neg v then -1 - (f.mag v : Int) else f.mag v
/-- The order in which −0 and +0 are equal (R190). -/
def Fmt.value (f : Fmt) (v : Nat) : Int := if f.neg v then -(f.mag v : Int) else f.mag v

/-- The lesser, or the greater, of a and b (R187). -/
def Fmt.pick (f : Fmt) (greater : Bool) (a b : Nat) : Nat :=
  if f.isNan a && f.isNan b then f.nan 1
  else if f.isNan a then b
  else if f.isNan b then a
  else if (if greater then f.key a < f.key b else f.key b < f.key a) then b else a

/-- The integer that a finite magnitude rounds to. -/
def roundInt (rnd : Nat) (neg : Bool) (m : Nat) (e : Int) : Nat :=
  if 0 ≤ e then m * 2 ^ e.toNat else roundShift rnd neg m (-e).toNat

/-- The integral value that the mode selects (R188). -/
def Fmt.integral (f : Fmt) (rnd a : Nat) : Nat :=
  match f.num a with
  | .fin s m e => f.round 1 s (roundInt rnd s m e) 0
  | x => f.pack rnd x

/-- a − trunc(a) (R188). -/
def Fmt.fraction (f : Fmt) (a : Nat) : Nat :=
  match f.num a with
  | .fin s m e => if 0 ≤ e then f.sign s else f.round 1 s (m % 2 ^ (-e).toNat) e
  | .inf s => f.sign s
  | .nan _ => f.nan 1

/-- a·2^n (R189). -/
def Fmt.scale (f : Fmt) (rnd a : Nat) (n : Int) : Nat :=
  match f.num a with
  | .fin s m e => f.round rnd s m (e + n)
  | x => f.pack rnd x

/-- The class mask of R190. -/
def Fmt.class (f : Fmt) (a : Nat) : Nat :=
  if f.isNan a then 256
  else
    let m := f.mag a
    let k := if f.inf && m == f.top then 3 else if m = 0 then 0 else if m < 2 ^ f.frac then 1 else 2
    2 ^ (if f.neg a then 3 - k else 4 + k)

/-- The conditions of R190. -/
def condFloat (k a b : Nat) : Bool :=
  let un := fp32.isNan a || fp32.isNan b
  let x := fp32.value a
  let y := fp32.value b
  match k with
  | 0 => !un && x == y
  | 1 => un || x != y
  | 2 => !un && decide (x < y)
  | 3 => !un && decide (x ≤ y)
  | 4 => !un && decide (y < x)
  | 5 => !un && decide (y ≤ x)
  | 6 => !un
  | _ => un

/-! ### Conversions -/

/-- The least value of an integer type of `w` bits. -/
def intMin (sgn : Bool) (w : Nat) : Int := if sgn then -(2 ^ (w - 1) : Nat) else 0
/-- The greatest value. -/
def intMax (sgn : Bool) (w : Nat) : Int := if sgn then (2 ^ (w - 1) : Nat) - 1 else (2 ^ w : Nat) - 1
/-- The two's complement of an integer in `w` bits. -/
def ofInt (w : Nat) (v : Int) : Nat := (v % (2 ^ w : Nat)).toNat
/-- An integer saturated to a type (R92, R193). -/
def saturate (sgn : Bool) (w : Nat) (v : Int) : Nat := ofInt w (max (intMin sgn w) (min (intMax sgn w) v))

/-- A number converted into an integer type (R105). -/
def Num.toInt (rnd : Nat) (sgn : Bool) (w : Nat) : Num → Nat
  | .fin s m e => let n := (roundInt rnd s m e : Int); saturate sgn w (if s then -n else n)
  | .inf s => ofInt w (if s then intMin sgn w else intMax sgn w)
  | .nan _ => 0

/-- An integer as a number. -/
def Num.ofInt (v : Int) : Num := .fin (decide (v < 0)) v.natAbs 0

/-- A number converted into a floating format (R105, R193). -/
def Fmt.convert (f : Fmt) (rnd : Nat) (x : Num) : Nat := f.pack rnd x

/-- A floating immediate element that is a NaN becomes the canonical NaN with cause 6 (R110). -/
def Fmt.immediate (f : Fmt) (v : Nat) : Nat := if f.isNan v then f.nan 6 else v

/-- The floating types. -/
def isFloat : Ty → Bool
  | .f32 | .f16x2 | .bf16x2 | .e4m3x4 | .e5m2x4 | .e2m1x8 => true
  | _ => false

/-- The rule of R110 on the elements of an immediate of a floating type. -/
def immFloat (t : Ty) (v : Word) : Word :=
  if isFloat t then
    let f := fmtOf t
    ofElems f.width fun i => f.immediate (elem f.width v i)
  else v

/-- emax of R197. -/
def emax : Ty → Int
  | .e4m3x4 => 8
  | .e5m2x4 => 15
  | _ => 2

/-- The E8M0 scale of a largest magnitude (R196, R197). -/
def blockScale (t : Ty) : Num → Nat
  | .nan _ => 0xFF
  | .inf _ => 254
  | .fin _ m e => if m = 0 then 127 else (max 0 (min 254 (e + Nat.log2 m - emax t + 127))).toNat

/-- The quantised element of a number under a scale (R196). -/
def quantise (t : Ty) (rnd : Nat) (x : Num) (scale : Nat) : Nat :=
  let f := fmtOf t
  match x with
  | .nan _ => f.nan 1
  | .inf s => if scale = 0xFF then f.nan 2 else f.infBits s
  | .fin s m e => if scale = 0xFF then f.nan 2 else f.round rnd s m (e + 127 - scale)

end Sys2Proof.Machine
end

