-- ==== Sys2Proof/Machine/Special.lean ====
section
/-! DEFINITION. The special functions, correctly rounded (R111, R112). `vrcp`, `vrsq` and `vsqrt` are exact integer
computations. The others are irrational wherever R112 and R111 name no exact value, and are computed to `bitsP` bits
after the point before their one rounding (log 8). -/
namespace Sys2Proof.Machine

/-- The fixed point: `x` stands for x · 2^(−bitsP). -/
def bitsP : Nat := 640
/-- One. -/
def oneP : Nat := 2 ^ bitsP
/-- A product of fixed-point values. -/
def mulP (x y : Nat) : Nat := x * y / oneP

/-- Σ_{k ≥ n} t·z^(2(k−n)) / (2k+1), signs alternating where `alt`: the tail of atan or atanh. -/
def atanSum (alt : Bool) (zz : Nat) : Nat → Nat → Nat → Int
  | 0, _, _ => 0
  | fuel + 1, n, t =>
    let v := ((t / (2 * n + 1) : Nat) : Int)
    (if alt && n % 2 == 1 then -v else v) + atanSum alt zz fuel (n + 1) (mulP t zz)

/-- atanh(z) for z ≤ 1/3. -/
def atanhP (z : Nat) : Nat := (atanSum false (mulP z z) 210 0 z).toNat
/-- atan(1/d). -/
def atanP (d : Nat) : Nat := let z := oneP / d; (atanSum true (mulP z z) 145 0 z).toNat

/-- ln 2 = 2·atanh(1/3). -/
def ln2P : Nat := 2 * atanhP (oneP / 3)
/-- π = 16·atan(1/5) − 4·atan(1/239). -/
def piP : Nat := 16 * atanP 5 - 4 * atanP 239

/-- Σ t·y^k·(n!)/((n+k)!): the tail of exp from term `n` on. -/
def expSum (y : Nat) : Nat → Nat → Nat → Nat
  | 0, _, _ => 0
  | fuel + 1, n, t => t + expSum y fuel (n + 1) (mulP t y / (n + 1))
/-- exp(y) for y < 1. -/
def expP (y : Nat) : Nat := expSum y 160 0 oneP

/-- The tail of the sine from the term of degree `n` on. -/
def sinSum (yy : Nat) : Nat → Nat → Nat → Int
  | 0, _, _ => 0
  | fuel + 1, n, t => (t : Int) - sinSum yy fuel (n + 2) (mulP t yy / ((n + 1) * (n + 2)))
/-- sin(y) for y ≤ π/2. -/
def sinP (y : Nat) : Nat := (sinSum (mulP y y) 90 1 y).toNat

/-- The integer square root, found bit by bit from bit `k − 1` down on the root `r`. -/
def isqrtFrom (n : Nat) : Nat → Nat → Nat
  | 0, r => r
  | k + 1, r => isqrtFrom n k (if (r + 2 ^ k) * (r + 2 ^ k) ≤ n then r + 2 ^ k else r)
/-- The integer square root. -/
def isqrt (n : Nat) : Nat := isqrtFrom n (Nat.log2 n / 2 + 1) 0

/-- A value between 0 and 1 in units of 2^(−bitsP), irrational. -/
def Fmt.roundP (f : Fmt) (rnd : Nat) (neg : Bool) (v : Nat) : Nat := f.round rnd neg v (-(bitsP : Int)) true

/-- Guard bits of the exact quotients and roots. -/
def guardBits : Nat := 256

/-- 1/x. -/
def Fmt.rcp (f : Fmt) (rnd a : Nat) : Nat :=
  match f.num a with
  | .fin s m e =>
    if m = 0 then f.infBits s
    else f.round rnd s (2 ^ guardBits / m) (-(guardBits : Int) - e) (2 ^ guardBits % m != 0)
  | .inf s => f.sign s
  | .nan _ => f.nan 1

/-- A finite value above 0 as m · 2^(2h). -/
def evenExp (m : Nat) (e : Int) : Nat × Int := if e % 2 = 0 then (m, e / 2) else (2 * m, (e - 1) / 2)

/-- 1/√x. -/
def Fmt.rsq (f : Fmt) (rnd a : Nat) : Nat :=
  match f.num a with
  | .fin s m e =>
    if m = 0 then f.infBits s
    else if s then f.nan 5
    else
      let (m, h) := evenExp m e
      let r := isqrt (4 ^ guardBits / m)
      f.round rnd false r (-(guardBits : Int) - h) (r * r * m != 4 ^ guardBits)
  | .inf s => if s then f.nan 5 else 0
  | .nan _ => f.nan 1

/-- √x. -/
def Fmt.sqrt (f : Fmt) (rnd a : Nat) : Nat :=
  match f.num a with
  | .fin s m e =>
    if m = 0 then f.sign s
    else if s then f.nan 5
    else
      let (m, h) := evenExp m e
      let r := isqrt (m * 4 ^ guardBits)
      f.round rnd false r (h - guardBits) (r * r != m * 4 ^ guardBits)
  | .inf s => if s then f.nan 5 else f.infBits false
  | .nan _ => f.nan 1

/-- |x| in fixed point. Every finite value of the lane formats below 2^12 is exact. -/
def fixP (m : Nat) (e : Int) : Nat := m * 2 ^ (e + bitsP).toNat

/-- 2^x. Beyond ±2000 the result lies outside the range of every format, and any such value rounds alike. -/
def Fmt.exp2 (f : Fmt) (rnd a : Nat) : Nat :=
  match f.num a with
  | .fin s m e =>
    if m = 0 then f.round rnd false 1 0
    else if 2000 ≤ roundInt 1 false m e then f.round rnd false 1 (if s then -2000 else 2000)
    else
      let x : Int := if s then -(fixP m e : Int) else fixP m e
      let n := x / oneP
      let y := (x % oneP).toNat
      if y = 0 then f.round rnd false 1 n
      else f.round rnd false (expP (mulP y ln2P)) (n - bitsP) true
  | .inf s => if s then 0 else f.infBits false
  | .nan _ => f.nan 1

/-- log₂ x. -/
def Fmt.log2 (f : Fmt) (rnd a : Nat) : Nat :=
  match f.num a with
  | .fin s m e =>
    if m = 0 then f.infBits true
    else if s then f.nan 5
    else
      let k := Nat.log2 m
      let n := e + k
      if m = 2 ^ k then f.round rnd (decide (n < 0)) n.natAbs 0
      else
        -- ln(m / 2^k) = 2·atanh((m − 2^k) / (m + 2^k))
        let z := (m - 2 ^ k) * oneP / (m + 2 ^ k)
        let v : Int := n * oneP + (2 * atanhP z * oneP / ln2P : Nat)
        if v < 0 then f.roundP rnd true (-v - 1).toNat else f.roundP rnd false v.toNat
  | .inf s => if s then f.nan 5 else f.infBits false
  | .nan _ => f.nan 1

/-- ±sin(π·r) for r in fixed point. -/
def Fmt.sinTurn (f : Fmt) (rnd : Nat) (neg : Bool) (zero : Bool) (r : Nat) : Nat :=
  let r := r % (2 * oneP)
  let neg := neg != decide (oneP ≤ r)
  let r := r % oneP
  if r = 0 then f.sign zero
  else if 2 * r = oneP then f.round rnd neg 1 0
  else f.roundP rnd neg (sinP (mulP piP (if oneP < 2 * r then oneP - r else r)))

/-- sin(π·x). -/
def Fmt.sin (f : Fmt) (rnd a : Nat) : Nat :=
  match f.num a with
  | .fin s m e => f.sinTurn rnd s s (fixP m e)
  | .inf _ => f.nan 5
  | .nan _ => f.nan 1

/-- cos(π·x) = sin(π·(|x| + 1/2)). -/
def Fmt.cos (f : Fmt) (rnd a : Nat) : Nat :=
  match f.num a with
  | .fin _ m e => f.sinTurn rnd false false (fixP m e + oneP / 2)
  | .inf _ => f.nan 5
  | .nan _ => f.nan 1

/-- tanh x = (1 − t)/(1 + t) with t = e^(−2x). From 400 on, t lies below every rounding. -/
def Fmt.tanh (f : Fmt) (rnd a : Nat) : Nat :=
  match f.num a with
  | .fin s m e =>
    if m = 0 then f.sign s
    else if 400 ≤ roundInt 1 false m e then f.roundP rnd s (oneP - 1)
    else
      let y := 2 * fixP m e
      let k := y / ln2P
      let t := oneP * oneP / expP (y - k * ln2P) / 2 ^ k
      f.roundP rnd s (min ((oneP - t) * oneP / (oneP + t)) (oneP - 1))
  | .inf s => f.round rnd s 1 0
  | .nan _ => f.nan 1

end Sys2Proof.Machine
end

