-- ==== Sys2Proof/Machine/LaneFloat.lean ====
section
/-! DEFINITION. Lane floating arithmetic (R186 to R190), special functions (R191) and the operand rules of floating
immediates (R110), with `vsel` (R185). -/
namespace Sys2Proof.Machine

/-- Operand b as a floating operand: an immediate goes through R110. -/
def LaneIn.fb (x : LaneIn) (l : Nat) : Word :=
  if x.l.form = .imm then immFloat x.l.ty (lane x.b.lo l) else lane x.b.lo l

/-- `vsel` (R185). -/
def execVsel (l : LaneOp) (s : State) : Host.Outcome State Fault Refusal :=
  issueLane s (.vsel l) fun x => x.mapWide latInt fun n =>
    if x.g.ctx.pget l.vc.toNat n then dword (lane x.a.lo n) (lane x.a.hi n) else dword (x.fb n) (lane x.b.hi n)

/-- Latency of the floating class (R130). -/
def latFloat : Nat := 6
/-- Latency of the special functions. -/
def latSpecial : Nat := 12

/-- A floating operation on each element: the format and the patterns of a, b and c. -/
def LaneIn.float (x : LaneIn) (lat : Nat) (f : Fmt → Nat → Nat → Nat → Nat) : LAct :=
  let m := fmtOf x.l.ty
  x.map32 lat fun l =>
    let b := x.fb l
    ofElems m.width fun i => f m (elem m.width (lane x.a.lo l) i) (elem m.width b i) (elem m.width (lane x.c.lo l) i)

/-- `vfadd`. -/
def execVfadd (l : LaneOp) (s : State) : Host.Outcome State Fault Refusal :=
  issueLane s (.vfadd l) fun x => x.float latFloat fun m a b _ => m.add l.rnd.toNat a b
/-- `vfsub`. -/
def execVfsub (l : LaneOp) (s : State) : Host.Outcome State Fault Refusal :=
  issueLane s (.vfsub l) fun x => x.float latFloat fun m a b _ => m.sub l.rnd.toNat a b
/-- `vfmul`. -/
def execVfmul (l : LaneOp) (s : State) : Host.Outcome State Fault Refusal :=
  issueLane s (.vfmul l) fun x => x.float latFloat fun m a b _ => m.mul l.rnd.toNat a b
/-- `vfma`. -/
def execVfma (l : LaneOp) (s : State) : Host.Outcome State Fault Refusal :=
  issueLane s (.vfma l) fun x => x.float latFloat fun m a b c => m.fma l.rnd.toNat a b c
/-- `vfmin` (R187). -/
def execVfmin (l : LaneOp) (s : State) : Host.Outcome State Fault Refusal :=
  issueLane s (.vfmin l) fun x => x.float latFloat fun m a b _ => m.pick false a b
/-- `vfmax`. -/
def execVfmax (l : LaneOp) (s : State) : Host.Outcome State Fault Refusal :=
  issueLane s (.vfmax l) fun x => x.float latFloat fun m a b _ => m.pick true a b
/-- `vfrnd` (R188). -/
def execVfrnd (l : LaneOp) (s : State) : Host.Outcome State Fault Refusal :=
  issueLane s (.vfrnd l) fun x => x.float latFloat fun m a _ _ => m.integral l.rnd.toNat a
/-- `vfrac`. -/
def execVfrac (l : LaneOp) (s : State) : Host.Outcome State Fault Refusal :=
  issueLane s (.vfrac l) fun x => x.float latFloat fun m a _ _ => m.fraction a

/-- Two products and c, exact, rounded once into FP32 (R189). -/
def dot2 (m : Fmt) (rnd : Nat) (a b c : Word) : Word :=
  let p := fun i => Num.mul (m.num (elem 16 a i)) (m.num (elem 16 b i))
  word (fp32.pack rnd (Num.sum (isDown rnd) [p 0, p 1, fp32.num c.toNat]))
/-- `vdot2` (R189). -/
def execVdot2 (l : LaneOp) (s : State) : Host.Outcome State Fault Refusal :=
  issueLane s (.vdot2 l) fun x => x.map32 latFloat fun n =>
    dot2 (fmtOf l.ty) l.rnd.toNat (lane x.a.lo n) (x.fb n) (lane x.c.lo n)
/-- `vfscl` (R189): b is a signed integer. -/
def execVfscl (l : LaneOp) (s : State) : Host.Outcome State Fault Refusal :=
  issueLane s (.vfscl l) fun x =>
    let m := fmtOf l.ty
    x.map32 latFloat fun n => ofElems m.width fun i =>
      m.scale l.rnd.toNat (elem m.width (lane x.a.lo n) i) (signed m.width (elem m.width (lane x.b.lo n) i))
/-- `vfcmp` (R190). -/
def execVfcmp (l : LaneOp) (s : State) : Host.Outcome State Fault Refusal :=
  issueLane s (.vfcmp l) fun x => x.write [x.pred latFloat l.vd.toNat fun n =>
    condFloat l.vc.toNat (lane x.a.lo n).toNat (x.fb n).toNat]
/-- `vclass` (R190). -/
def execVclass (l : LaneOp) (s : State) : Host.Outcome State Fault Refusal :=
  issueLane s (.vclass l) fun x => x.float latFloat fun m a _ _ => m.class a

/-- `vrcp` (R191). -/
def execVrcp (l : LaneOp) (s : State) : Host.Outcome State Fault Refusal :=
  issueLane s (.vrcp l) fun x => x.float latSpecial fun m a _ _ => m.rcp l.rnd.toNat a
/-- `vrsq`. -/
def execVrsq (l : LaneOp) (s : State) : Host.Outcome State Fault Refusal :=
  issueLane s (.vrsq l) fun x => x.float latSpecial fun m a _ _ => m.rsq l.rnd.toNat a
/-- `vsqrt`. -/
def execVsqrt (l : LaneOp) (s : State) : Host.Outcome State Fault Refusal :=
  issueLane s (.vsqrt l) fun x => x.float latSpecial fun m a _ _ => m.sqrt l.rnd.toNat a
/-- `vexp2`. -/
def execVexp2 (l : LaneOp) (s : State) : Host.Outcome State Fault Refusal :=
  issueLane s (.vexp2 l) fun x => x.float latSpecial fun m a _ _ => m.exp2 l.rnd.toNat a
/-- `vlog2`. -/
def execVlog2 (l : LaneOp) (s : State) : Host.Outcome State Fault Refusal :=
  issueLane s (.vlog2 l) fun x => x.float latSpecial fun m a _ _ => m.log2 l.rnd.toNat a
/-- `vsin`. -/
def execVsin (l : LaneOp) (s : State) : Host.Outcome State Fault Refusal :=
  issueLane s (.vsin l) fun x => x.float latSpecial fun m a _ _ => m.sin l.rnd.toNat a
/-- `vcos`. -/
def execVcos (l : LaneOp) (s : State) : Host.Outcome State Fault Refusal :=
  issueLane s (.vcos l) fun x => x.float latSpecial fun m a _ _ => m.cos l.rnd.toNat a
/-- `vtanh`. -/
def execVtanh (l : LaneOp) (s : State) : Host.Outcome State Fault Refusal :=
  issueLane s (.vtanh l) fun x => x.float latSpecial fun m a _ _ => m.tanh l.rnd.toNat a

end Sys2Proof.Machine
end

