-- ==== Sys2Proof/Machine/LaneConvert.lean ====
section
/-! DEFINITION. Conversion, packing and quantisation (R192 to R197), moves and special reads (R198, R199). -/
namespace Sys2Proof.Machine

/-! ### Conversion -/

/-- An element of a type as a number. -/
def numOf (t : Ty) (v : Nat) : Num := if isFloat t then (fmtOf t).num v else Num.ofInt (elemInt t v)
/-- A number converted into an element of a type (R105, R193). -/
def convertTo (t : Ty) (rnd : Nat) (x : Num) : Nat :=
  if isFloat t then (fmtOf t).convert rnd x else x.toInt rnd (signedTy t) (elemBits t)

/-- `vcvt` (R192, R193). The source type of a well-formed instruction is the one its selector names. -/
def execVcvt (l : LaneOp) (s : State) : Host.Outcome State Fault Refusal :=
  issueLane s (.vcvt l) fun x =>
    let src := (Ty.ofCode l.vc.toNat).getD .b32
    x.mapWide latFloat fun n =>
      let a := x.a.nat src n
      BitVec.ofNat 64 ((List.range l.ty.elems).foldl (fun r i =>
        r + convertTo l.ty l.rnd.toNat (numOf src (a / 2 ^ (elemBits src * i) % 2 ^ elemBits src)) *
          2 ^ (elemBits l.ty * i)) 0)

/-- The unpacked type of a packed one (R194). -/
def unpacked (t : Ty) : Ty := if isFloat t then .f32 else if signedTy t then .i32 else .n32

/-- `vpack` (R194). A form-1 b goes through R110 in the source format. -/
def execVpack (l : LaneOp) (s : State) : Host.Outcome State Fault Refusal :=
  issueLane s (.vpack l) fun x =>
    let u := unpacked l.ty
    let w := elemBits l.ty
    let k := l.vc.toNat
    let old := x.g.vread l.vd.toNat
    x.map32 latFloat fun n =>
      let b := if l.form = .imm then immFloat u (lane x.b.lo n) else lane x.b.lo n
      let put := fun (v : Word) => convertTo l.ty l.rnd.toNat (numOf u v.toNat)
      setElem w (setElem w (lane old n) (2 * k) (put (lane x.a.lo n))) (2 * k + 1) (put b)

/-- `vunpk` (R195). -/
def execVunpk (l : LaneOp) (s : State) : Host.Outcome State Fault Refusal :=
  issueLane s (.vunpk l) fun x =>
    let w := elemBits l.ty
    x.map32 latFloat fun n => word (convertTo (unpacked l.ty) 0 (numOf l.ty (elem w (lane x.a.lo n) l.vc.toNat)))

/-- `vquant`, apply mode (R196). -/
def execVquant (l : LaneOp) (s : State) : Host.Outcome State Fault Refusal :=
  issueLane s (.vquant l) fun x =>
    let old := x.g.vread l.vd.toNat
    x.map32 latFloat fun n =>
      setElem (elemBits l.ty) (lane old n) l.vc.toNat
        (quantise l.ty l.rnd.toNat (fp32.num (lane x.a.lo n).toNat) ((lane x.b.lo n).toNat % 256))

/-- `vquant`, scale mode (R196, R197). -/
def execVquantScale (l : LaneOp) (s : State) : Host.Outcome State Fault Refusal :=
  issueLane s (.vquantScale l) fun x => x.map32 latFloat fun n =>
    word (blockScale l.ty (fp32.num (lane x.a.lo n).toNat))

/-! ### Moves -/

/-- `vmov` (R198). -/
def execVmov (l : LaneOp) (s : State) : Host.Outcome State Fault Refusal :=
  issueLane s (.vmov l) fun x => x.mapWide latInt fun n => dword (lane x.b.lo n) (lane x.b.hi n)
/-- `vmovi` (R198). -/
def execVmovi (l : LaneOp) (s : State) : Host.Outcome State Fault Refusal :=
  issueLane s (.vmovi l) fun x => x.mapWide latInt fun n => dword (x.fb n) (lane x.b.hi n)

/-- A special register as a lane reads it (R41, R199). -/
def LaneIn.sreg (x : LaneIn) (n l : Nat) : Word :=
  match n with
  | 0x00 => Sys2Proof.word l
  | 0x16 => x.act
  | 0x17 => Sys2Proof.word (pathIndex x.p x.slot)
  | _ => Sys2Proof.word ((x.s.sreg x.g0 n).getD 0)

/-- `vsrd` (R199): a number that a lane does not read has taken RESERVED_FIELD (`State.barred`). -/
def execVsrd (l : LaneOp) (s : State) : Host.Outcome State Fault Refusal :=
  issueLane s (.vsrd l) fun x => x.map32 latInt fun n => x.sreg l.imm.toNat n

end Sys2Proof.Machine
end

