-- ==== Sys2Proof/Machine/Collective.lean ====
section
/-! DEFINITION. Cross-lane collectives (R200 to R205). -/
namespace Sys2Proof.Machine

/-- Latency of the shuffle and scan class (R130). -/
def latShuffle : Nat := 8

/-- The source lane of a shuffle (R201), none where it lies outside 0 to 31. -/
def shuffleSource (mode l b : Nat) : Option Nat :=
  let v : Int := match mode with
    | 0 => b
    | 1 => (l : Int) - b
    | 2 => (l : Int) + b
    | _ => Nat.xor l b
  if 0 ≤ v && v < 32 then some v.toNat else none

/-- `vshfl` (R201). -/
def execVshfl (l : LaneOp) (s : State) : Host.Outcome State Fault Refusal :=
  issueLane s (.vshfl l) fun x => x.map32 latShuffle fun n =>
    match shuffleSource l.vc.toNat n (lane x.b.lo n).toNat with
    | some k => if inMask x.ex k then lane x.a.lo k else lane x.a.lo n
    | none => lane x.a.lo n

/-- The combination of values, without one the identity of the operation (R202). -/
def combine (t : Ty) (op rnd : Nat) (xs : List Nat) : Nat :=
  let w := elemBits t
  let fold := fun (f : Nat → Nat → Nat) (e : Nat) => xs.foldl f e
  let pick := fun (greater : Bool) (a b : Nat) =>
    if (if greater then elemInt t b < elemInt t a else elemInt t a < elemInt t b) then a else b
  if t = .f32 then
    match op, xs with
    | 0, [] => 0
    | 0, _ => fp32.pack rnd (Num.sum (isDown rnd) (xs.map fp32.num))
    | 1, [] => fp32.infBits false
    | 2, [] => fp32.infBits true
    | _, a :: r => r.foldl (fp32.pick (op == 2)) a
    | _, [] => 0
  else
    match op with
    | 0 => fold (· + ·) 0 % 2 ^ w
    | 1 => fold (pick false) (ofInt w (intMax (signedTy t) w))
    | 2 => fold (pick true) (ofInt w (intMin (signedTy t) w))
    | 3 => fold Nat.land (2 ^ w - 1)
    | 4 => fold Nat.lor 0
    | _ => fold Nat.xor 0

/-- The values of the contributors with index below `n` (R203). -/
def LaneIn.contributions (x : LaneIn) (n : Nat) : List Nat :=
  ((lanesOf x.ex).filter (· < n)).map (x.a.nat x.l.ty)

/-- `vscan` (R203). -/
def execVscan (l : LaneOp) (s : State) : Host.Outcome State Fault Refusal :=
  issueLane s (.vscan l) fun x => x.mapWide latShuffle fun n =>
    BitVec.ofNat 64 (combine l.ty (l.vc.toNat % 8) l.rnd.toNat (x.contributions (if bitAt l.vc.toNat 3 then n else n + 1)))

/-- A collective with a uniform destination is issued: its flag rises, and its write is in flight (R130, R205). -/
def LaneIn.uniform (x : LaneIn) (vals : List Word) : LAct :=
  if !x.g.ctx.canRaise x.flag [] then .wait 12
  else .go (x.g.push
    { work := .collective x.l.vd.toNat vals, flag := x.flag, lane := true, slot := pathIndex x.p x.slot, pc := x.g0.ctx.pc
      laneIndex := x.p.pc, word := Sys2Proof.word (x.word / 2 ^ 64), mask := x.ex })

/-- `vred` (R202). -/
def execVred (l : LaneOp) (s : State) : Host.Outcome State Fault Refusal :=
  issueLane s (.vred l) fun x =>
    let v := combine l.ty l.vc.toNat l.rnd.toNat (x.contributions 32)
    x.uniform (if l.ty.regs = 2 then [word v, word (v / 2 ^ 32)] else [word v])
/-- `vballot` (R204). -/
def execVballot (l : LaneOp) (s : State) : Host.Outcome State Fault Refusal :=
  issueLane s (.vballot l) fun x => x.uniform [x.ex &&& maskOf fun n => x.g.ctx.pget l.va.toNat n]
/-- `vfirst` (R204). -/
def execVfirst (l : LaneOp) (s : State) : Host.Outcome State Fault Refusal :=
  issueLane s (.vfirst l) fun x => x.uniform [if x.ex = 0 then BitVec.allOnes 32 else word (lowest x.ex)]

/-- Registers of a level from a number on are written as one action. -/
def Group.landAll (g : Group) (level r : Nat) (vs : List Word) : Group :=
  ((List.range vs.length).zip vs).foldl (fun g p => g.landU level (r + p.1) p.2) g

/-- A collective of the interrupted context has written a pair of uniform registers whole: its word has valid checks again (log 6). -/
def State.healCollective (s : State) (g : Group) (o : Op) (r : Nat) (vs : List Word) : State :=
  if o.level = 0 && vs.length == 2 then s.heal .uniform (groupKey g.uid (4 * r)) 8 else s

/-- COLLECTIVE_WRITE: the register or pair is written, then the flag falls (R205). -/
def execCollectiveWrite (u op : Nat) (s : State) : Host.Outcome State Fault Refusal :=
  match s.group? u with
  | none => .next s
  | some g =>
    match g.op? op with
    | none => .next s
    | some o =>
      match o.work with
      | .collective r vs => .next ((s.healCollective g o r vs).setGroup ((g.landAll o.level r vs).retire o))
      | _ => .next s

end Sys2Proof.Machine
end

