-- ==== Sys2Proof/Machine/Access.lean ====
section
/-! DEFINITION. Memory accesses of groups: windows (R44, R48 to R53), the order of checks (R57), paths (R58), the access
itself at its home (R49, R73, R157, R211), and what waits for a translation (R25, R336, R342). -/
namespace Sys2Proof.Machine

/-! ### Placement of a block's memory -/

/-- The block in a neighbourhood slot of the group's block (R48, R50, R366). A block that has retired is not there;
under the hold option it stays until the last of its neighbourhood has retired (R16). A block that has retired itself has no
window any more (R171). -/
def State.slotBlock (s : State) (g : Group) (slot : Nat) : Option Block :=
  let b := s.blockOf g
  let k := s.gridOf g
  if b.gone || k.nbhd = 0 || k.nbhd ≤ slot then none
  else s.blocks.find? fun x => x.grid == b.grid && x.index == b.index / k.nbhd * k.nbhd + slot && x.holds

/-- The resident block of a partition whose scratchpad share holds a byte of a core's store (R48, R49). One that has retired is
resident no more, though its neighbourhood may still hold its scratchpad (R31). -/
def State.ownerOf (s : State) (part die core off : Nat) : Option Block :=
  s.blocks.find? fun b =>
    b.die == die && b.holds && !b.gone &&
    ((s.grid? b.grid).getD {}).part == part && decide (b.core ≤ core) && decide (core < b.core + b.span) &&
    (let sh := b.share (core - b.core); decide (sh.1 ≤ off) && decide (off < sh.1 + sh.2))

/-! ### Where an address leads -/

/-- The first address of the fixed windows. -/
def winBase : Nat := 0xFF0000000000

/-- What one run of bytes of an access meets. -/
structure Piece where
  /-- the attributes that R47 compares, none where the bytes have none -/
  attr  : Option (List Nat) := none
  fault : Option Code := none
  miss  : Bool := false
  /-- the walk that it misses will find no leaf -/
  gone  : Bool := false
  absent : Bool := false
  loc   : Loc := .regWindow 0
  path  : Nat := 0
  slice : Bool := false
  peer  : Bool := false
  sd    : Bool := false
  va    : Nat := 0
  n     : Nat := 0
  deriving Repr, Inhabited

/-- What an access does to its bytes. -/
inductive AccKind where
  | read | write | atomic
  deriving DecidableEq, Repr, Inhabited

/-- The number of R341. -/
def AccKind.num : AccKind → Nat
  | .read => 0
  | .write => 1
  | .atomic => 2

/-- The leaf permits the access (R57, R333). -/
def permits (pte : Nat) (k : AccKind) : Bool :=
  pteKind pte < 2 &&
  (match k with
   | .read => pteR pte
   | .write => pteW pte
   | .atomic => pteR pte && pteW pte)

/-- A run of bytes that a leaf maps. -/
def leafPiece (g : Group) (k : AccKind) (pte base va n : Nat) : Piece :=
  let bank := pteKind pte == 1
  let stack := pteStack pte
  { attr := some [0, pteKind pte, if bank then stack else 0, if bank then bits pte 25 22 else 0, bits pte 61 58]
    fault := if permits pte k then none else some .accessViolation
    loc := leafLoc pte base va, path := if bank then (if stack = g.die then 4 else 2) else 3
    peer := bank && stack != g.die, sd := pteSd pte, va := va, n := n }

/-- A run of bytes of an ordinary page, translated by a unit of a TLB class (R335), by a run of the block's extents (R337), or by
a translation that the instruction or command has obtained already. One that is missing says whether its walk will end in a page
fault, which comes last of the faults (R57); its leaf is known only when it has been walked (R336). An access in two runs, or partly in
one, is translated piece by piece: a choice of the model (R337, log 150). -/
def State.pagePiece (s : State) (g : Group) (cls : TlbClass) (unit : Nat) (k : AccKind) (va n : Nat) : Piece :=
  match s.look g.die cls unit (s.partOf g) ((s.blockOf g).extents ++ g.leaves) va with
  | .miss =>
    { miss := true, gone := (s.walkVa g.die (s.partOf g) va).record?.isSome, va := va, n := n }
  | .fault => { absent := true, va := va, n := n }
  | .hit pte base => leafPiece g k pte base va n

/-- A run of bytes of the register alias window (R52, R53). The alignment is checked with the access. -/
def State.aliasPiece (g : Group) (k : AccKind) (o n : Nat) : Piece :=
  let valid := (o + n ≤ 128 * g.vwin && o + n ≤ 0x8000) || (0x8000 ≤ o && o + n ≤ 0x8000 + 4 * g.uwin) ||
    (0x9000 ≤ o && o + n ≤ 0x9040)
  { attr := some [5], loc := .regWindow o, va := winBase + 0xA000000000 + o, n := n
    fault := if !valid then some .registerRange
             else if 0x9000 ≤ o && k != .read then some .accessViolation else none }

/-- A run of bytes of an access that crosses no 64-byte boundary, made by a unit of a TLB class on behalf of the group. -/
def State.pieceBy (s : State) (g : Group) (cls : TlbClass) (unit : Nat) (k : AccKind) (va n : Nat) : Piece :=
  let b := s.blockOf g
  if va < winBase then s.pagePiece g cls unit k va n
  else
    let o := va - winBase
    if o < 2 ^ 29 then
      let die := bits o 28 28
      let core := bits o 27 21
      let p : Piece := { loc := .mem .core (coreKey die core (bits o 20 0)), slice := die = g.die, peer := die != g.die
                         path := if die != g.die then 2 else if core = g.core then 0 else 1, va := va, n := n }
      match s.ownerOf (s.partOf g) die core (bits o 20 0) with
      | some x => { p with attr := some [1, x.uid, core] }
      | none => p
    else if 0x4000000000 ≤ o && o < 0x4000000000 + 2 ^ 21 then
      let o := o - 0x4000000000
      let sh := s.ownShare g
      if o < sh.2 then
        { attr := some [2], loc := .mem .core (coreKey g.die g.core (sh.1 + o)), va := va, n := n }
      else { fault := some .sliceUnmapped, va := va, n := n }
    else if 0x6000000000 ≤ o && o < 0x6000000000 + 24 * 2 ^ 21 then
      let o := o - 0x6000000000
      let p : Piece := { loc := .nbhd o, slice := true, va := va, n := n }
      match s.slotBlock g (o / 2 ^ 21) with
      | none => p
      | some x =>
        match shareByte x.die x.shares x.core (o % 2 ^ 21) with
        | none => p
        | some key => { p with attr := some [3, o / 2 ^ 21], path := if key / 2 ^ 21 % 128 = g.core then 0 else 1 }
    else if 0x8000000000 ≤ o && o < 0x8000000000 + 2 ^ 21 then
      let o := o - 0x8000000000
      if o < b.colBytes then
        { attr := some [4], path := 4, va := va, n := n
          loc := .mem .bank (bankKey g.die (coreCol g.core) (b.cols.getD g.spanPos 0 + o)) }
      else { fault := some .sliceUnmapped, va := va, n := n }
    else if 0xA000000000 ≤ o && o < 0xA000000000 + 2 ^ 16 then State.aliasPiece g k (o - 0xA000000000) n
    else { fault := some .accessViolation, va := va, n := n }

/-- The same of a scalar or lane access. -/
def State.piece (s : State) (g : Group) (k : AccKind) (va n : Nat) : Piece :=
  s.pieceBy g .loadStore (g.core * 4 + g.quarter) k va n

/-- An access split at 64-byte boundaries. -/
def splitRuns : Nat → Nat → Nat → List (Nat × Nat)
  | 0, _, _ => []
  | fuel + 1, va, n =>
    if n = 0 then []
    else
      let k := min n (64 - va % 64)
      (va, k) :: splitRuns fuel (va + k) (n - k)

/-- What the checks of R57 say of an access. -/
inductive Checked where
  | trap (c : Code) (va : Nat)
  /-- a translation is missing; `gone` where its walk will end in a page fault -/
  | miss (va : Nat) (gone : Bool)
  /-- a page is absent: a record is unanswered -/
  | absent (va : Nat)
  | ok (a : Acc) (sd : Bool)
  deriving Repr, Inhabited

/-- Some two runs have different attributes (R47). -/
def attrsDiffer (ps : List Piece) : Bool :=
  match ps.filterMap (·.attr) with
  | [] => false
  | a :: t => t.any (· != a)

/-- What the pieces of an access at `a` give, in the order of R57. A missing translation whose leaf may still fault is walked first
(R336); a page fault comes last, and with it the miss that becomes one. -/
def checkPieces (a : Nat) (ps : List Piece) : Checked :=
  if attrsDiffer ps then .trap .attributeStraddle a
  else
    match ps.find? (fun p => p.miss && !p.gone), ps.findSome? (·.fault) with
    | some p, _ => .miss p.va false
    | none, some c => .trap c a
    | none, none =>
      match ps.find? (·.miss) with
      | some p => .miss p.va true
      | none =>
        match ps.find? (·.absent) with
        | some p => .absent p.va
        | none =>
          .ok { va := a, locs := ps.map fun p => (p.loc, p.n), path := (ps.head?.map (·.path)).getD 0
                slice := ps.any (·.slice), peer := ps.any (·.peer) } (ps.any (·.sd))

/-- The checks of R57 on an access of `n` bytes at an exact address. One outside the address space is reported modulo 2^48, one below
zero as 0: a choice of the model (log 128). One that starts below the register alias window and runs into it is none of the window's, so
it takes ACCESS_VIOLATION for the gap before it: a choice of the model (R52, R53, log 143). -/
def State.check (s : State) (g : Group) (k : AccKind) (align : Nat) (va : Int) (n : Nat) : Checked :=
  if va < 0 || 2 ^ 48 ≤ va then .trap .accessViolation (va.toNat % 2 ^ 48)
  else
    let a := va.toNat
    let regWin := winBase + 0xA000000000 ≤ a && a < winBase + 0xA000000000 + 2 ^ 16
    if a % align != 0 || (regWin && (k == .atomic || !((n == 4 || n == 8) && a % n == 0))) then .trap .misaligned a
    else
      let ps := (splitRuns (n / 64 + 2) a n).map fun r =>
        if r.1 < 2 ^ 48 then s.piece g k r.1 r.2 else { fault := some .accessViolation, va := r.1, n := r.2 }
      if k == .write && (ps.any fun p => match p.loc with | .regWindow o => o < 0x8000 && p.fault.isNone && g.fed (s.issuing g) [o / 128]
                                                             | _ => false) then .trap .feedPendingWrite a
      else checkPieces a ps

/-- A unit of a TLB class has used its translations of a range, page by page (R335). What a declared extent translates uses none
(R337). -/
def State.useTlb (s : State) (g : Group) (cls : TlbClass) (unit va n : Nat) : State :=
  (pagesOf va n).foldl (fun t p =>
    if (runOf (s.blockOf g).extents p).isSome then t else t.touchTlb g.die cls unit (s.partOf g) p) s

/-- A scalar or lane access, or a transfer, has used its translations. -/
def State.useAcc (s : State) (g : Group) (a : Acc) : State :=
  s.useTlb g .loadStore (g.core * 4 + g.quarter) a.va (a.locs.map (·.2)).sum

/-! ### Bytes of the register alias window -/

/-- The group descriptor (R54). -/
def State.descriptor (s : State) (g : Group) : List Byte :=
  let b := s.blockOf g
  let sh := b.share g.spanPos
  leBytes 8 (winBase + g.die * 2 ^ 28 + g.core * 2 ^ 21 + sh.1) ++ leBytes 4 g.vbase ++ leBytes 4 sh.2 ++
  leBytes 4 b.scratch ++ leBytes 4 g.vwin ++ leBytes 4 g.uwin ++ leBytes 4 g.awin ++ leBytes 4 b.colBytes ++
  leBytes 4 (coreCol g.core) ++ leBytes 4 g.k.granted ++ leBytes 20 0

/-- A word of the interrupted context's, or the running kernel's, registers at an alias offset (R52). -/
def aliasWord (g : Group) (o : Nat) : Word :=
  if o < 0x8000 then Cells.get 0 g.vreg (o / 4) else if o / 4 = 0x2000 then 0 else Cells.get 0 g.ureg (o / 4 - 0x2000)

/-- Bytes at an alias offset. -/
def State.aliasRead (s : State) (g : Group) (o n : Nat) : List Byte :=
  if 0x9000 ≤ o then ((s.descriptor g).drop (o - 0x9000)).take n
  else ((upFrom 0 (n / 4)).flatMap fun i => leBytes 4 (aliasWord g (o + 4 * i)).toNat)

/-- A store to the alias window: a word or two (R53). g0 stays zero. The registers are those of the interrupted context: a
handler's own pending writes of the shadow registers are not concerned (R52). -/
def aliasWrite (g : Group) (o : Nat) (bs : List Byte) : Group :=
  (upFrom 0 (bs.length / 4)).foldl (fun g i =>
    let w := word (leNat ((bs.drop (4 * i)).take 4))
    let k := o / 4 + i
    if k < 0x2000 then
      let g := { g with vreg := Cells.set 0 g.vreg k w }
      if g.inHandler then g else g.dropPend false (k / 32) (laneBit (k % 32))
    else if k = 0x2000 then g
    else { g with ureg := Cells.set 0 g.ureg (k - 0x2000) w }) g

/-! ### Performing an access -/

/-- The memory runs of an access, once the windows that are checked at arrival are resolved. None where a byte lies
in no allocation of the caller (R49, R50). -/
def State.resolve (s : State) (g : Group) (r : Loc × Nat) : Option (List (Loc × Nat)) :=
  match r with
  | (.nbhd o, n) =>
    match s.slotBlock g (o / 2 ^ 21) with
    | none => none
    | some b =>
      match shareByte b.die b.shares b.core (o % 2 ^ 21), shareByte b.die b.shares b.core (o % 2 ^ 21 + n - 1) with
      | some key, some _ => some [(.mem .core key, n)]
      | _, _ => none
  | x => some [x]

/-- A slice-window or peer run is owned by a resident block of the partition (R49). -/
def State.owned (s : State) (part : Nat) (r : Loc × Nat) : Bool :=
  match r with
  | (.mem .core key, n) =>
    (s.ownerOf part (key / 2 ^ 28) (key / 2 ^ 21 % 128) (key % 2 ^ 21)).isSome &&
    (s.ownerOf part (key / 2 ^ 28) (key / 2 ^ 21 % 128) (key % 2 ^ 21 + n - 1)).isSome
  | _ => true

/-- A column-bank run lies in the share of the partition on its stack (R345). -/
def State.bankOwned (s : State) (part : Nat) (r : Loc × Nat) : Bool :=
  match r with
  | (.mem .bank key, n) =>
    match s.part? (key / 2 ^ 26) part with
    | some p =>
      let sh := p.share (key / 2 ^ 26)
      decide (sh.cbLo * 4096 ≤ key % 2 ^ 22) && decide (key % 2 ^ 22 + n ≤ sh.cbHi * 4096)
    | none => false
  | _ => true

/-- The bytes of the runs of an access. -/
def State.readRuns (s : State) (g : Group) (rs : List (Loc × Nat)) : List Byte :=
  rs.flatMap fun r =>
    match r with
    | (.mem sp a, n) => s.readMem sp a n
    | (.regWindow o, n) => s.aliasRead g o n
    | (.nbhd _, n) => List.replicate n 0

/-- Where a word of the alias window lies in the stores that SEC-DED covers (R28, R52, R54, R410). -/
def Group.aliasKey (g : Group) (o : Nat) : Space × Nat :=
  if o < 0x8000 then (.core, coreKey g.die g.core (g.quarter * 393216 + 128 * g.vbase + o))
  else (.uniform, groupKey g.uid (o - 0x8000))

/-- Registers written whole through the alias window have valid checks again (log 6). -/
def State.healAlias (s : State) (u o n : Nat) : State :=
  match s.group? u with
  | some g => s.heal (g.aliasKey o).1 (g.aliasKey o).2 n
  | none => s

/-- The bytes stored over the runs of an access. -/
def State.writeRuns (s : State) (u : Nat) : List (Loc × Nat) → List Byte → State
  | [], _ => s
  | (.mem sp a, n) :: t, bs => (s.writeMem sp a (bs.take n)).writeRuns u t (bs.drop n)
  | (.regWindow o, n) :: t, bs => ((s.modGroup u fun g => aliasWrite g o (bs.take n)).healAlias u o n).writeRuns u t (bs.drop n)
  | (.nbhd _, n) :: t, bs => s.writeRuns u t (bs.drop n)

/-- The access meets a run that reads as uncorrectable. -/
def State.badRuns (s : State) (g : Group) (rs : List (Loc × Nat)) : Bool :=
  rs.any fun r =>
    match r with
    | (.mem sp a, n) => s.poisoned sp a n
    | (.regWindow o, n) => s.poisoned (g.aliasKey o).1 (g.aliasKey o).2 n
    | (.nbhd _, _) => false

end Sys2Proof.Machine
end

