-- ==== Sys2Proof/Machine/Holdings.lean ====
section
/-! DEFINITION. What a block holds on its cores and columns (R28, R51), and for which unit it gives it up (R363, R370). -/
namespace Sys2Proof.Machine

/-- The byte range of a group's window and frame in the core store of its core (R28, R54). -/
def windowRange (quarter vbase vregs : Nat) : Nat × Nat := (quarter * 393216 + 128 * vbase, 128 * (vregs + Config.frameUnits))

/-- Two ranges share a byte. -/
def overlaps (a b : Nat × Nat) : Bool := decide (a.1 < b.1 + b.2) && decide (b.1 < a.1 + a.2)

/-- What a resident block takes on a core: its groups, or, when it has finished, what the hold option keeps. -/
def State.blockUse (s : State) (b : Block) (core : Nat) : CoreUse :=
  let gs := s.groups.filter fun g => g.block == b.uid && g.core == core
  let share := b.share (core - b.core)
  let shares := if share.2 = 0 then [] else [share]
  { ranges := shares ++ gs.map fun g => windowRange g.quarter g.vbase g.vwin
    shares := shares
    quarters := gs.map (·.quarter)
    uniform := gs.map fun g => (g.quarter, g.uwin + 32)
    tiles := (gs.map (·.awin)).sum
    bars := if gs.isEmpty then 0 else b.barSlots
    slots := gs.map (·.rslot) }

/-- The unit on behalf of which a switch request or a pre-emption of a block is pending (R363, R370). -/
def Block.gives (b : Block) : Option (Nat × Nat) :=
  match b.req with
  | some r => if r.upward then none else some (r.forGrid, r.forBlock)
  | none => if b.st == .stopping || b.st == .saving then b.forUnit else b.wanted.bind (·.2)

/-- What a block gives on each of its cores and columns when it leaves them, kept for a unit (R36, R370). -/
def State.yields (s : State) (u : Nat × Nat) (b : Block) : List Reserve :=
  (List.range b.span).map fun i =>
    { grid := u.1, first := u.2, die := b.die, core := b.core + i, use := s.blockUse b (b.core + i)
      col := if b.colBytes = 0 then (0, 0) else (b.cols.getD i 0, b.colBytes) }

/-- What a block that leaves its cores gives to a unit of whose admission it is a victim; a park and the room for the token's block
keep nothing (R370, R375, R376). -/
def State.owed (s : State) (b : Block) : List Reserve :=
  if b.req.isNone && b.reason == 2 && (b.st == .stopping || b.st == .saving) then []
  else (b.gives.map fun u => s.yields u b).getD []

end Sys2Proof.Machine
end

