-- ==== Sys2Proof/Machine/Paging.lean ====
section
/-! DEFINITION. Translation misses and page faults of groups: the walker queue (R336), the walk (R331), joining an
unanswered record (R342), the idempotent abort (R25, R344), and the answers of R343. -/
namespace Sys2Proof.Machine

/-- Page faults abort the blocks of the grid (R25): a strict grid ignores the mark (R344). -/
def Grid.aborts (k : Grid) : Bool := k.idem && !k.strict

/-- A block is aborted at a page: its groups stop, its resources are released, and it waits for the answer of the
page's record, to start again (R25, R343, R344). What a victim frees so is kept for its unit (R370). -/
def State.abortBlock (s : State) (b : Block) (page : Nat) : State :=
  let s := (s.groupsOf b.uid).foldl State.endStops s
  { s with
    reserves := s.reserves ++ s.owed b
    groups := s.groups.filter fun g => g.block != b.uid
    blocks := s.blocks.map fun x =>
      if x.uid == b.uid then
        { x with st := .aborted, abortPage := some page, waitFrom := s.clk, shares := [], cols := [], colBytes := 0, req := none, forUnit := none
                 wanted := none, keeps := []
                 bars := List.replicate 16 {}, extents := [], moves := min (x.moves + 1) (2 ^ 32 - 1) }
      else x
    copies := s.copies.filter fun c => c.owner / 192 != b.uid
    pool := s.pool.filter fun a => a.block != b.uid }

/-- The asker of a group's access. -/
def State.asker (s : State) (g : Group) (agent op : Nat) (pc mask : Word) (va : Nat) : Asker :=
  { cls := .loadStore, unit := g.core * 4 + g.quarter, agent := agent, op := op, group := some g.uid, core := g.core
    index := g.index, pc := pc, mask := mask, va := va, grid := (s.blockOf g).grid, queue := (s.gridOf g).queue }

/-- A miss of a group's access enters the walker queue, or waits for room there. -/
def State.walkFor (s : State) (g : Group) (a : Asker) : State := (s.enqueueWalk g.die (s.partOf g) a.va a).getD s

/-- The unanswered record of a page is joined, if there is one (R342). -/
def State.joinUnanswered (s : State) (g : Group) (page : Nat) : State :=
  match s.unanswered? g.die (s.partOf g) page with
  | some u => s.joinRecord u
  | none => s

/-- The scalar stream of a group joins the unanswered record of a page, once (R342). -/
def State.joinPage (s : State) (g : Group) (page : Nat) : State :=
  if g.pageWait = some page then s else s.joinUnanswered g page

/-- A lane path of a group joins the unanswered record of a page, unless it has (R342). -/
def State.joinLanePage (s : State) (g : Group) (page : Nat) : State :=
  if g.asked.contains page then s else s.joinUnanswered g page

/-- The lane path has come back to the instruction that asked for pages. -/
def Group.unask (g : Group) (pages : List Nat) : Group := { g with asked := pages.foldl List.erase g.asked }

/-- A copy request waits on a page (R65). -/
def State.copyWaits (s : State) (id page : Nat) : State :=
  { s with copies := s.copies.map fun c => if c.id == id then { c with wait := some page } else c }

/-- An operation of a group waits on a page (R252, R279). -/
def Group.opWaits (g : Group) (id page : Nat) : Group :=
  { g with ops := g.ops.map fun o => if o.id == id then { o with wait := some page } else o }

/-- The read of a band finds no leaf for a page (R293). -/
def State.bandAbsent (s : State) (k page : Nat) : State :=
  { s with bands := s.bands.map fun x => if x.id == k then { x with absent := some page } else x }

/-- An asker of a walk that failed: its block is aborted, or it waits on the page: the copy request, the operation, the band, or
the stream of its group (R25, R342). -/
def State.askerWaits (s : State) (page : Nat) (a : Asker) : State :=
  match a.group.bind s.group? with
  | none =>
    match a.copy, a.band with
    | some c, _ => s.copyWaits c page
    | none, some k => s.bandAbsent k page
    | none, none => s
  | some g =>
    if (s.gridOf g).aborts then s.abortBlock (s.blockOf g) page
    else
      match a.copy, a.oper with
      | some c, _ => s.copyWaits c page
      | none, some o => s.modGroup g.uid fun x => x.opWaits o page
      | none, none => s.modGroup g.uid fun x =>
          if a.lane then { x with asked := page :: x.asked } else { x with pageWait := some page }

/-- The translation is complete before its access is issued (R336): who asked keeps it until then, whatever leaves the TLB. -/
def State.giveLeaf (s : State) (a : Asker) (r : Run) : State :=
  match a.band, a.copy, a.oper, a.group with
  | some k, _, _, _ => { s with bands := s.bands.map fun x => if x.id == k then { x with leaves := x.leaves ++ [r] } else x }
  | none, some c, _, _ => { s with copies := s.copies.map fun x => if x.id == c then { x with leaves := x.leaves ++ [r] } else x }
  | none, none, some o, some u => s.modGroup u fun g =>
      { g with ops := g.ops.map fun x => if x.id == o then { x with leaves := x.leaves ++ [r] } else x }
  | none, none, none, some u =>
    if a.cls = .loadStore || a.cls = .fetch then s.modGroup u fun g => { g with leaves := g.leaves ++ [r] } else s
  | _, _, _, _ => s

/-- Entries of one TLB that translate a byte of the new one for its partition: it takes their place (R334). -/
def Tlb.replaces (t x : Tlb) : Bool := x.sameUnit t && x.part == t.part && decide (x.va < t.va + t.size) && decide (t.va < x.va + x.size)

/-- The walked leaf is cached where it was asked for, in place of what the TLB held of those bytes. One that a command of a class 0
or 1 grid asks for is pinned, and a pin that an earlier asker gave stays (R334, R335). -/
def State.fillFor (s0 : State) (die part pte base size : Nat) (a : Asker) : State :=
  let s := s0.giveLeaf a { va := base, len := size, pte := BitVec.ofNat 64 pte }
  let pinned := a.cls == .base && (((s.grid? a.grid).map (·.cls)).getD 3 < 2)
  let t : Tlb := { die := die, cls := a.cls, unit := a.unit, part := part, va := base, size := size, pte := BitVec.ofNat 64 pte }
  let t := { t with pinned := pinned || s.tlbs.any fun x => t.replaces x && x.pinned }
  { s with tlbs := fillTlb (s.tlbs.filter fun x => !t.replaces x) t }

/-- PAGE_WALK: the oldest queued miss of a stack is walked (R331, R336, R340, R342). A band that finds no leaf is lost, with a record of
its own (R293). -/
def execPageWalk (die : Nat) (s : State) : Host.Outcome State Fault Refusal :=
  let d := s.die die
  match d.walks with
  | [] => .next s
  | w :: rest =>
    let s1 := s.setDie die { d with walks := rest }
    match s1.part? die w.part with
    | none => .next ((w.askers.filterMap (·.band)).foldl (fun t k => t.bandAbsent k w.page) s1)
    | some p =>
      let va := w.page * 4096
      match walk s1 p va with
      | .leaf pte base size => .next (w.askers.foldl (fun t a => t.fillFor die w.part pte base size a) (s1.fillUpper p va))
      | r =>
        let code := r.record?.getD 0x21
        let aborts := fun (a : Asker) => ((a.group.bind s1.group?).map fun g => (s1.gridOf g).aborts).getD false
        let s2 := (w.askers.filter fun a => a.band.isNone).foldl (fun t a => t.translationRecord die w.part code a 0 (aborts a)) s1
        .next (w.askers.foldl (fun t a => t.askerWaits w.page a) s2)

/-- Packets that wait on a page are tried again (R343, R359). -/
def State.releasePackets (s : State) (die part page : Nat) : State :=
  let d := s.die die
  let f := fun (p : Packet) =>
    if p.wait == some page && s.regN die (pkQ p.queue 8) % 16 == part then { p with wait := none } else p
  s.setDie die { d with packets := d.packets.map f }

/-- Everything parked on a page of a stack's partition is released (R343). -/
def State.release (s : State) (die part page : Nat) : State :=
  let s := s.releasePackets die part page
  let freeP := fun (p : Path) => if p.park = some page then { p with park := none, st := .running } else p
  { s with
    groups := s.groups.map fun g =>
      if g.die == die && s.partOf g == part then
        { g with
          pageWait := if g.pageWait = some page then none else g.pageWait
          parkWhole := if g.parkWhole = some page then none else g.parkWhole
          parkH := if g.parkH = some page then none else g.parkH
          asked := g.asked.filter fun x => x != page
          k := { g.k with p0 := freeP g.k.p0, p1 := freeP g.k.p1 }
          h := { g.h with p0 := freeP g.h.p0, p1 := freeP g.h.p1 }
          ops := g.ops.map fun o => if o.wait = some page then { o with wait := none } else o }
      else g
    grids := s.grids.map fun k =>
      if k.die == die && k.part == part && k.extentWait == some page then { k with extentWait := none } else k
    blocks := s.blocks.map fun b =>
      if b.die == die && b.abortPage == some page && ((s.grid? b.grid).getD {}).part == part then
        { b with abortPage := none } else b
    copies := s.copies.map fun c =>
      if c.die == die && c.wait == some page && ((s.grid? ((s.block? (c.owner / 192)).getD {}).grid).getD {}).part == part
      then { c with wait := none } else c }

/-- The unanswered record that a sequence number of a partition names on a stack. -/
def State.recordBySeq (s : State) (die p seq : Nat) : Option Unanswered :=
  s.unanswered.find? fun u => u.die == die && u.part == p && u.seq == some seq

/-- Action 0 of TW_RESOLVE: every access waiting on the record is issued again (R343). -/
def State.resolveRetry (s : State) (die p seq : Nat) : State :=
  match s.recordBySeq die p seq with
  | none => s
  | some u => ({ s with unanswered := s.unanswered.erase u } : State).release die p u.page

/-- Action 1: the record's queue context, where it has one, ends with reason 0xFB (R343, R361). Accesses of other contexts that had joined the
record issue again: a choice of the model (log 151). -/
def State.resolveTerminate (s : State) (die p seq : Nat) : State :=
  match s.recordBySeq die p seq with
  | none => s
  | some u =>
    let s1 := ({ s with unanswered := s.unanswered.erase u } : State).release die p u.page
    if u.queue < noQueue then s1.terminate die u.queue 3 0xFB else s1

/-- TW_RESOLVE with action 0 (R343). -/
def execTwResolveRetry (die p seq : Nat) (s : State) : Host.Outcome State Fault Refusal := .next (s.resolveRetry die p seq)

/-- TW_RESOLVE with action 1 (R343). -/
def execTwResolveTerminate (die p seq : Nat) (s : State) : Host.Outcome State Fault Refusal :=
  .next (s.resolveTerminate die p seq)

end Sys2Proof.Machine
end

