-- ==== Sys2Proof/Machine/Perform.lean ====
section
/-! DEFINITION. Performing accesses at their homes and their return: atomics (R157, R211 to R213), arrival at the target
core and at the peer stack (R49, R345), uncorrectable data (R411), watchpoints (R385), and the order in which
accesses return (R59, R68, R76). -/
namespace Sys2Proof.Machine

/-! ### Atomics -/

/-- The new value of an atomic of R157 and R211: `v` is the operand, or the expected value, and `w` the new one. -/
def atomNew (op size old v w : Nat) : Nat :=
  let n := 8 * size
  match op with
  | 0 => (old + v) % 2 ^ n
  | 1 => if signed n v < signed n old then v else old
  | 2 => if signed n old < signed n v then v else old
  | 3 => min old v
  | 4 => max old v
  | 5 => Nat.land old v
  | 6 => Nat.lor old v
  | 7 => Nat.xor old v
  | 8 => v
  | 9 => if old = v then w else old
  | 10 => fp32.add 0 old v
  | 11 => fp32.pick false old v
  | _ => fp32.pick true old v

/-! ### One access -/

/-- What performing an access gives. -/
structure Performed where
  s     : State
  fault : Option Code := none
  got   : List Byte := []

/-- The access is performed on resolved runs. -/
def State.performRuns (s : State) (g : Group) (k : MemKind) (a : Acc) (rs : List (Loc × Nat)) : Performed :=
  match k with
  | .load _ _ => if s.badRuns g rs then { s := s, fault := some .uncorrectable } else { s := s, got := s.readRuns g rs }
  | .store => { s := s.writeRuns g.uid rs a.data }
  | .atomic op =>
    if s.badRuns g rs then { s := s, fault := some .uncorrectable }
    else
      let old := s.readRuns g rs
      let v := leNat (a.data.take op.size)
      let w := leNat (a.data.drop op.size)
      { s := s.writeRuns g.uid rs (leBytes op.size (atomNew op.op op.size (leNat old) v w)), got := old }

/-- The access of a lane or the scalar stream, at its home: SLICE_UNMAPPED where a byte of the slice or neighbourhood
window lies in no allocation (R49, R50); a peer refuses what its partition does not hold, and data it cannot
correct (R345). -/
def State.performAt (s : State) (g : Group) (k : MemKind) (a : Acc) : Performed :=
  match a.locs.mapM (s.resolve g) with
  | none => { s := s, fault := some .sliceUnmapped }
  | some rs =>
    let rs := rs.flatten
    let part := s.partOf g
    if (a.slice || a.peer) && !(a.locs.all (s.owned part)) then { s := s, fault := some .sliceUnmapped }
    else if a.peer && !(rs.all (s.bankOwned part)) then { s := s, fault := some .accessViolation }
    else s.performRuns g k a rs

/-! ### The lanes of an operation -/

/-- The memory operation of an operation. -/
def Work.mem? : Work → Option (MemKind × Dst × List Acc)
  | .mem k d accs => some (k, d, accs)
  | _ => none

/-- Accesses in ascending lane order that are chosen and not yet performed are performed (R213); one whose answer is lost has been,
or never will be (R345). -/
def State.performAccs (s : State) (u : Nat) (k : MemKind) (sel : Acc → Bool) : List Acc → State × List Acc
  | [] => (s, [])
  | a :: t =>
    if sel a && !a.performed && !a.held && !a.lost then
      match s.group? u with
      | none => (s, a :: t)
      | some g =>
        let r := s.performAt g k a
        let (s', t') := r.s.performAccs u k sel t
        (s', { a with performed := true, fault := r.fault, got := r.got } :: t')
    else
      let (s', t') := s.performAccs u k sel t
      (s', a :: t')

/-- The mask of the lanes of accesses. -/
def accMask (accs : List Acc) : Word := accs.foldl (fun m a => m ||| laneBit a.lane) 0

/-! ### Watchpoints -/

/-- Watchpoint `k` of core `c` meets a run (R385). -/
def State.watchHits (s : State) (part : Nat) (rd wr : Bool) (r : Loc × Nat) (k : Nat) : Bool :=
  match r with
  | (.mem .core key, n) =>
    let die := key / 2 ^ 28
    let c := key / 2 ^ 21 % 128
    let off := key % 2 ^ 21
    let ctl := s.regN die (dbWpCtl c k)
    let lo := s.regN die (dbWpAddr c k)
    bitAt ctl 31 && bits ctl 27 24 == part && ((bitAt ctl 29 && rd) || (bitAt ctl 28 && wr)) &&
      decide (off < lo + (bits ctl 11 0 + 1)) && decide (lo < off + n)
  | _ => false

/-- The route bit of the watchpoint that a run meets. -/
def State.watchRoute (s : State) (r : Loc × Nat) (k : Nat) : Bool :=
  match r with
  | (.mem .core key, _) => bitAt (s.regN (key / 2 ^ 28) (dbWpCtl (key / 2 ^ 21 % 128) k)) 30
  | _ => false

/-- The core-store offset of the first byte of a run in the range of watchpoint `k`. -/
def State.watchOffset (s : State) (r : Loc × Nat) (k : Nat) : Nat :=
  match r with
  | (.mem .core key, _) => max (key % 2 ^ 21) (s.regN (key / 2 ^ 28) (dbWpAddr (key / 2 ^ 21 % 128) k))
  | _ => 0

/-- The lowest watchpoint that the accesses meet: its number, its run, and the lanes that meet some watchpoint. -/
def State.watchMatch (s : State) (g : Group) (k : MemKind) (accs : List Acc) : Option (Nat × (Loc × Nat) × Word) :=
  let part := s.partOf g
  let rd := k != .store
  let wr := match k with | .load _ _ => false | _ => true
  let runs := accs.flatMap fun a => ((a.locs.mapM (s.resolve g)).getD []).flatten.map fun r => (a.lane, r)
  let hit := fun n => runs.find? fun (r : Nat × (Loc × Nat)) => s.watchHits part rd wr r.2 n
  let mask := (runs.filter fun r => (List.range 4).any (s.watchHits part rd wr r.2)).foldl
    (fun m r => m ||| laneBit r.1) (0 : Word)
  ((List.range 4).find? fun n => (hit n).isSome).bind fun n => (hit n).map fun r => (n, r.2, mask)

/-- What the accesses of an operation have met, with what its earlier lanes had: the lowest watchpoint, its route, the offset and
every lane (R385). -/
def State.watchSeen (s : State) (g : Group) (o : Op) (k : MemKind) (accs : List Acc) : Option (Nat × Bool × Nat × Word) :=
  match o.seen, (s.watchMatch g k (accs.filter fun a => a.fault.isNone)).map fun (n, r, m) =>
      (n, s.watchRoute r n, s.watchOffset r n, m) with
  | some a, some b =>
    let m := a.2.2.2 ||| b.2.2.2
    some (if a.1 ≤ b.1 then (a.1, a.2.1, a.2.2.1, m) else (b.1, b.2.1, b.2.2.1, m))
  | none, x => x
  | x, none => x

/-- A watchpoint acts on the group that made the access (R385): a stop of the issuing stream at its next boundary, or a
WATCHPOINT that waits. -/
def Group.watchNote (g : Group) (o : Op) (w : Nat × Bool × Nat × Word) : Group :=
  let mask := if o.lane then w.2.2.2 else 0
  if w.2.1 then
    let x := g.stop o.stream
    g.setStop o.stream { x with
      halt := true, kind := 2, events := x.events ++ [(o.id, 2, word w.1, word w.2.2.1, mask)] }
  else
    { g with watch := g.watch ++ [{ code := .watchpoint, delivery := .asynchronous, lane := o.lane, slot := o.slot
                                    laneIndex := o.laneIndex, pc := o.pc, mask := mask, info := word w.1 }] }

/-- A watchpoint acts once every access of the instruction has been performed: on a path that has ended since, the stop is that
of the path into which it merged, or its event is recorded (R385, R395). -/
def State.watched (s : State) (u : Nat) (o : Op) (w : Option (Nat × Bool × Nat × Word)) : State :=
  match s.group? u, w with
  | some g, some w =>
    let g1 := g.watchNote o w
    if !w.2.1 then (s.setGroup g1).tryEnter g1
    else if o.stream != 3 && (g1.k.path (o.stream == 1)).st == .free then
      let x := g1.stop o.stream
      let y := g1.stop (1 - o.stream)
      let g2 := g1.setStop o.stream {}
      if (g1.k.path (o.stream == 0)).st == .free then (s.stopEvents g1 o.stream x.events).setGroup g2
      else
        let g3 := g2.setStop (1 - o.stream) (y.join x)
        (s.setGroup g3).stopAt g3 (1 - o.stream)
    else (s.setGroup g1).stopAt g1 o.stream
  | _, _ => s

/-- The chosen accesses of an operation are performed. -/
def State.performSel (s : State) (u : Nat) (o : Op) (sel : Acc → Bool) : State :=
  match o.work.mem? with
  | none => s
  | some (k, d, accs) =>
    let (s1, accs') := s.performAccs u k sel accs
    s1.modGroup u fun g => g.setOp { o with work := .mem k d accs' }

/-! ### Return -/

/-- A vector element of a level is written by an operation in flight. Older fixed-latency writes no longer reach it. -/
def Group.landV (g : Group) (level r l : Nat) (v : Word) : Group :=
  let drop := fun (p : Path) => { p with pend := p.pend.map fun q =>
    if !q.pred && q.reg == r then { q with mask := q.mask &&& ~~~laneBit l } else q }
  let c := g.ctxOf level
  let g := g.setCtxOf level { c with p0 := drop c.p0, p1 := drop c.p1 }
  if level = 0 then { g with vreg := Cells.set 0 g.vreg (Group.vbase32 r l) v }
  else { g with svreg := Cells.set 0 g.svreg (Group.vbase32 r l) v }

/-- The words that loaded bytes make: a byte or half extended to a word, else word by word (R155, R209). -/
def loadWords (size : Nat) (sgn : Bool) (bs : List Byte) : List Word :=
  if size < 4 then [if sgn then BitVec.ofInt 32 (signed (8 * size) (leNat bs)) else word (leNat bs)]
  else (List.range (size / 4)).map fun i => word (leNat ((bs.drop (4 * i)).take 4))

/-- The words that an access brings back. -/
def MemKind.words (k : MemKind) (bs : List Byte) : List Word :=
  match k with
  | .load size sgn => loadWords size sgn bs
  | .store => []
  | .atomic a => loadWords a.size false bs

/-- The destination of a performed access is written. -/
def Group.landAcc (g : Group) (level : Nat) (k : MemKind) (d : Dst) (a : Acc) : Group :=
  let ws := k.words a.got
  match d with
  | .none => g
  | .uni r => (List.range ws.length).foldl (fun g i => g.landU level (r + i) (ws.getD i 0)) g
  | .vec r => (List.range ws.length).foldl (fun g i => g.landV level (r + i) a.lane (ws.getD i 0)) g

/-- The path counters that show an operation: none of an ended handler entry (R306, R307). -/
def Op.shownPaths (o : Op) : List Nat := if o.orphan then [] else o.paths

/-- The deferred fault of an operation: the first fault of its lowest faulting lane (R156, R216, R217). -/
def opFault (o : Op) (accs : List Acc) (die : Nat) : Option Deferred :=
  match (sortRank (fun (a : Acc) => [a.lane]) accs).find? (·.fault.isSome) with
  | none => none
  | some a =>
    let c := a.fault.getD .sliceUnmapped
    let mask := accMask (accs.filter fun x => x.fault == some c)
    some { op := o.id, flag := o.flag, paths := o.shownPaths, level := o.level
           trap := { code := c, delivery := .deferred, lane := o.lane, slot := o.slot, laneIndex := o.laneIndex
                     pc := o.pc, mask := if o.lane then mask else 0, address := a.va, word := o.word, op := some o.id
                     info := if c = .remoteFault || c = .remoteTimeout then word (1 - die) else 0 } }

/-- A memory operation that changes memory. -/
def MemKind.writes : MemKind → Bool
  | .load _ _ => false
  | _ => true

/-- The operation may be performed now: within a stack a store waits for the earlier accesses of its party, and a load
for the earlier loads and atomics (R76); every access waits for the earlier ones of its path (R68). -/
def Group.inOrder (g : Group) (o : Op) (k : MemKind) : Bool :=
  g.turnOf o && g.ops.all fun x =>
    !(decide (x.id < o.id) && x.lane == o.lane) ||
    (match x.work.mem? with
     | some (kx, _, accs) =>
       accs.all (fun a => a.peer || a.held || a.performed) || (!k.writes && kx == .store)
     | none => true)

/-! ### Held for the token -/

/-- What was held for the commit token is held no more once the group has it (R219, R252). -/
def State.releaseHeld (s : State) (g : Group) (o : Op) : Op :=
  match o.work with
  | .mem k d accs =>
    if s.holdsToken g then { o with work := .mem k d (accs.map fun a => { a with held := false }) } else o
  | .mtst f n a => if s.holdsToken g then { o with work := .mtst f n { a with held := false } } else o
  | _ => o

/-! ### Held operations -/

/-- The class 4 entry of a token-held lane instruction (R320). -/
def heldLaneWords (o : Op) (accs : List Acc) : Regs :=
  let head : List (Nat × Nat) := [(0, o.full / 2 ^ 64), (1, o.full / 2 ^ 32), (2, o.full), (3, (accMask (accs.filter (·.held))).toNat)]
  let body := (accs.filter (·.held)).flatMap fun a =>
    [(4 + 6 * a.lane, a.va), (5 + 6 * a.lane, a.va / 2 ^ 32)] ++
    (List.range 4).map fun i => (6 + 6 * a.lane + i, leNat ((a.data.drop (4 * i)).take 4))
  (head ++ body).foldl (fun r x => Cells.set 0 r x.1 (word x.2)) []

/-- The class 4 entry of an abandoned draw command (R400). -/
def heldDrawWords (o : Op) (n : Nat) (key : List Word) (desc : List Byte) : Regs :=
  let head := [(0, o.word), (1, o.pc), (2, word n), (255, 1)] ++ (List.range 3).map fun i => (3 + i, key.getD i 0)
  let body := (List.range (desc.length / 4)).map fun i => (8 + i, word (leNat ((desc.drop (4 * i)).take 4)))
  (head ++ body).foldl (fun r x => Cells.set 0 r x.1 x.2) []

/-- The class 4 entry of a held `mtst`: no lanes, its word and its address; its data are the tiles (R320, log 113). -/
def heldTransferWords (o : Op) (a : Acc) : Regs :=
  ([(2, o.word.toNat), (4, a.va), (5, a.va / 2 ^ 32)] : List (Nat × Nat)).foldl (fun r x => Cells.set 0 r x.1 (word x.2)) []

/-- The entry of a held operation. -/
def heldWords (o : Op) : Option Held :=
  match o.work with
  | .mem _ _ accs => if accs.any (·.held) then some { words := heldLaneWords o accs } else none
  | .mtst _ _ a => if a.held then some { words := heldTransferWords o a } else none
  | .ddraw _ n desc key => some { words := heldDrawWords o n key desc }
  | .dpos _ desc key => some { words := heldDrawWords o 0 key desc }
  | _ => none

/-- The held instructions that class 4 and word 66 of the control block show (R316, R320, R324): in a save or restore entry the
records, else those that wait for the commit token at this moment. -/
def State.heldNow (s : State) (g : Group) : List Held :=
  if g.entry != .trap then g.heldRec
  else (g.ops.filter fun o => o.level == 0 && !o.work.isDraw).filterMap fun o => heldWords (s.releaseHeld g o)

/-! ### Performing -/

/-- The operation returns now: its turn on its paths has come, and nothing of it waits for a page, for the token (R219), for an
arrival, or for an answer that is lost. -/
def Group.mayReturn (g : Group) (o : Op) (k : MemKind) (accs : List Acc) : Bool :=
  g.inOrder o k && g.returns o && o.wait.isNone &&
    accs.all fun a => !a.lost && (a.performed || !(a.slice || a.peer || a.held || g.blocked o a))

/-- Lanes held for the token keep the operation, or an earlier one, from returning: the other lanes are performed while they wait
(R68, R219). The lanes that arrive at a core are performed with the others, in lane order (R213). -/
def State.performHere (s : State) (g : Group) (o : Op) (k : MemKind) (accs : List Acc) : State :=
  if g.inOrder o k && o.wait.isNone && (accs.any (·.held) || !g.returns o) &&
      accs.all (fun a => !a.slice || a.performed || a.held || g.blocked o a)
  then s.performSel g.uid o fun a => !(a.slice || a.peer) && !g.blocked o a else s

/-- A load or atomic of eight bytes has written a pair of uniform registers whole (log 6). -/
def State.landHeal (s : State) (g : Group) (level : Nat) (k : MemKind) (d : Dst) (accs : List Acc) : State :=
  match d with
  | .uni r =>
    if level = 0 && accs.all fun a => a.fault.isNone && (k.words a.got).length == 2
    then s.heal .uniform (groupKey g.uid (4 * r)) 8 else s
  | _ => s

/-- ACCESS_RETURN: an access is performed at its home, if it was not performed on arrival, its destination is written,
and its counter and flag fall (R59, R214); a watchpoint that it has met acts (R385). The lanes of an operation with parked
lanes return without them, and the operation stays until they have (R218). -/
def execAccessReturn (u op : Nat) (s : State) : Host.Outcome State Fault Refusal :=
  match s.group? u with
  | none => .next s
  | some g =>
    match g.op? op with
    | none => .next s
    | some o0 =>
      let o := s.releaseHeld g o0
      match o.work.mem? with
      | none => .next s
      | some (k, d, accs0) =>
        if !g.mayReturn o k accs0 then .next (s.performHere g o k accs0)
        else
          let s1 := s.performSel u o fun _ => true
          match s1.group? u with
          | none => .next s1
          | some g1 =>
            let accs := (((g1.op? op).bind fun o => o.work.mem?).map (·.2.2)).getD []
            let w := s1.watchSeen g1 o k accs
            let g2 := (accs.filter fun a => a.fault.isNone).foldl (fun g a => g.landAcc o.level k d a) g1
            let s1 := s1.landHeal g1 o.level k d accs
            if o.parked != 0 then
              .next (s1.setGroup (g2.setOp { o with work := .mem k d (accs.filter fun a => a.fault.isSome), seen := w }))
            else
              let g3 := g2.retire o
              .next ((s1.setGroup { g3 with deferred := g3.deferred ++ (opFault o accs g.die).toList }).watched u o w)

/-- An access on its way over the mesh: sent, not to the own core, not yet performed. -/
def Acc.onMesh (a : Acc) : Bool := !a.performed && !a.held && !a.lost && !a.locs.isEmpty && (a.slice || a.path != 0)

/-- The flits of an operation fail at a hop after their 4 retries: its accesses on the mesh are not performed, and take UNCORRECTABLE
(R410, R411). -/
def Op.meshFails (o : Op) : Op :=
  match o.work with
  | .mem k d accs =>
    { o with work := .mem k d (accs.map fun a =>
        if a.onMesh then { a with performed := true, fault := some .uncorrectable } else a) }
  | _ => o

/-- The agent of an operation's accesses (R341). -/
def Op.agent (o : Op) : Nat :=
  if o.work.isMatrix then 3 else if o.lane && laneOpcode o.full = 0xC5 then 4 else o.lane.toNat

/-- The record of a refused or unanswered peer access (R341, R345). -/
def State.peerRecord (s : State) (g : Group) (o : Op) (die code info : Nat) (k : MemKind) (accs : List Acc) : State :=
  s.record die (s.partOf g) code
    { agent := o.agent, group := some g.uid, core := g.core, index := g.index
      op := match k with | .load _ _ => 0 | .store => 1 | .atomic _ => 2
      pc := if o.lane then word o.laneIndex else o.pc, mask := if o.lane then accMask accs else 0
      va := (accs.head?.map (·.va)).getD 0 } info

/-- Accesses refused at the peer become REMOTE_FAULT, with one record for each target fault code (R345). -/
def State.refusePeers (s : State) (u op : Nat) : State :=
  match s.group? u with
  | none => s
  | some g =>
    match g.op? op with
    | none => s
    | some o =>
      match o.work.mem? with
      | none => s
      | some (k, d, accs) =>
        let bad := accs.filter fun a => a.peer && a.fault.isSome && a.fault != some .remoteFault &&
          a.fault != some .remoteTimeout
        let codes := [Code.accessViolation, .sliceUnmapped, .uncorrectable].filter fun c =>
          bad.any fun a => a.fault == some c
        let s1 := codes.foldl (fun t c =>
          t.peerRecord g o (1 - g.die) 0x25 c.num k (bad.filter fun a => a.fault == some c)) s
        s1.modGroup u fun g => g.setOp { o with work := .mem k d (accs.map fun a =>
          if a.peer && a.fault.isSome && a.fault != some .remoteTimeout then { a with fault := some .remoteFault } else a) }

/-- No Viaduct link retrains (R408). -/
def State.linkUp (s : State) : Bool := !(s.die0.retrain || s.die1.retrain)

/-- Flits have crossed the links: the count of replays of one flit starts again (R408). -/
def State.linkQuiet (s : State) : State := { s with
  die0 := { s.die0 with replays := 0 }, die1 := { s.die1 with replays := 0 } }

/-- PEER_ACCESS_ARRIVAL: the accesses of an operation that cross Viaduct arrive, and are performed or refused (R345). -/
def execPeerAccessArrival (u op : Nat) (s : State) : Host.Outcome State Fault Refusal :=
  match s.group? u with
  | none => .next s
  | some g =>
    match g.op? op with
    | none => .next s
    | some o0 =>
      let o := s.releaseHeld g o0
      match o.work.mem? with
      | some (k, _, accs) =>
        if g.inOrder o k && s.linkUp && accs.any (fun a => a.peer && !a.performed && !a.held && !a.lost) then
          .next ((s.linkQuiet.performSel u { o with since := none } fun a => a.peer && !g.blocked o a).refusePeers u op)
        else .next s
      | none => .next s

/-- The words of the tiles of a level: the accumulator window, or the shadow tiles, which lie in the vector shadow (R234, R260):
element (i, j) of tile `t` has the key 256·t + 16·i + j in both. -/
def Group.tiles (g : Group) (level : Nat) : Regs := if level = 0 then g.tile else g.svreg

/-- The bytes of tiles, in the order of memory (R234). -/
def Group.tileData (g : Group) (level first n : Nat) : List Byte :=
  (upFrom (256 * first) (256 * n)).flatMap fun k => leBytes 4 (Cells.get 0 (g.tiles level) k).toNat

/-! ### Answers that do not come (R345) -/

/-- The clocks within which an answer of the other stack comes: VX_TIMEOUT of the stack that asks, in µs, 0 acting as 1 (R350). -/
def State.timeoutClk (s : State) (die : Nat) : Nat := max 1 (s.regN die (vxBase + 0x10) % 65536) * clkPerUs

/-- What waits for an answer since a clk has waited too long. -/
def State.expired (s : State) (die : Nat) (since : Option Nat) : Bool := since.any fun c => decide (c + s.timeoutClk die ≤ s.clk)

end Sys2Proof.Machine
end

