-- ==== Sys2Proof/Machine/LaneMemory.lean ====
section
/-! DEFINITION. Lane memory instructions (R206 to R215), parking on a page fault (R218, R226), and stores held for the
commit token (R219, R320). -/
namespace Sys2Proof.Machine

/-- The address of a lane (R207). -/
def LaneIn.addr (x : LaneIn) (sel l : Nat) : Int :=
  let base := (x.g.u64 (2 * x.l.va.toNat)).toNat
  let idx := if bitAt sel 7 then 0 else (lane x.b.lo l).toInt
  base + idx * (2 ^ x.l.rnd.toNat : Nat) + x.l.imm.toInt

/-- Bytes of a lane that a load or store moves (R209). -/
def moveBytes (sel : Nat) (t : Ty) : Nat :=
  match sel % 16 with
  | 0 => 4 * t.regs
  | 1 => 1
  | 2 => 2
  | _ => 16

/-- An operation that R320 holds, or that takes a place among the held ones: one with parked lanes (R218), one with lanes or bytes
that wait for the token, a draw. -/
def Op.isHeld (o : Op) : Bool :=
  match o.work with
  | .mem _ _ accs => o.parked != 0 || accs.any (·.held)
  | .mtst _ _ a => a.held
  | .vsamp _ _ held => held
  | .vrowpk accs => accs.any (·.held)
  | .ddraw .. => true
  | .dpos .. => true
  | _ => false

/-- The places of R320 that are taken. -/
def Group.heldCount (g : Group) : Nat := (g.ops.filter fun o => o.isHeld).length + g.heldRec.length

/-- The group with the writes of a path that concern some lanes made at once (R218). -/
def Group.commitLanes (g : Group) (slot : Bool) (m : Word) : Group :=
  let p := g.ctx.path slot
  let g1 := p.pend.foldl (fun g q => g.commit1 { q with mask := q.mask &&& m }) g
  g1.setCtx (g1.ctx.setPath slot { g1.ctx.path slot with pend := p.pend.map fun q => { q with mask := q.mask &&& ~~~m } })

/-- Records of pages are joined by a lane path, each once (R342). -/
def State.joinPages (s : State) (g : Group) (pages : List Nat) : State := pages.foldl (fun t pg => t.joinLanePage g pg) s

/-- The lanes of a path that may not split park the whole group (R26, R218): nothing is performed or counted. -/
def parkGroup (x : LaneIn) (s : State) (page : Nat) : State × LAct :=
  let g := x.g0.commitLanes x.slot (BitVec.allOnes 32)
  let p := { g.ctx.path x.slot with pend := [], la := none, lb := none, lc := none, atTrap := true }
  let g1 := g.setCtx (g.ctx.setPath x.slot p)
  (s.setGroup ((if g.inHandler then { g1 with parkH := some page } else { g1 with parkWhole := some page }).waitL 1), .stop)

/-- A parked path whose instruction, issued again, meets an absent page, the same or another, parks again alone (R320), though it stand in
slot 1, of which R26 parks the whole group: a choice of the model outside a restore (log 138). -/
def reparkPath (x : LaneIn) (s : State) (page : Nat) : State × LAct :=
  let p := { x.g0.ctx.path x.slot with st := .parked, park := some page, atTrap := true }
  (s.setGroup ((x.g0.setCtx (x.g0.ctx.setPath x.slot p)).waitL 1), .stop)

/-- The path of slot 0 may split off its parked lanes (R226). -/
def LaneIn.maySplit (x : LaneIn) : Bool :=
  !x.slot && x.p.rc.isNone && x.g0.ctx.s0.isEmpty && x.p.serial.isNone && x.g0.ctx.p1.st == .free

/-- The parked lanes move into slot 1 (R226). Where no lane is left in slot 0, the path there has come to its end (R223). -/
def LaneIn.splitParked (x : LaneIn) (g : Group) (m : Word) (page op : Nat) : Group :=
  let g1 := g.commitLanes false m
  let p0 := g1.ctx.p0
  let p1 : Path := { st := .parked, pc := x.p.pc, mask := m, left := x.p.left, setA := x.p.setA, setB := x.p.setB
                     park := some page, again := some op, atTrap := true }
  let rest := p0.mask &&& ~~~m
  g1.setCtx { g1.ctx with p0 := { p0 with mask := rest, left := if rest = 0 then 0 else p0.left }, p1 := p1 }

/-- The operation of a lane memory instruction. -/
def LaneIn.memOp (x : LaneIn) (k : MemKind) (d : Dst) (paths : List Nat) (accs : List Acc) (parked : Word) : Op :=
  { work := .mem k d accs, flag := x.flag, paths := paths, lane := true, slot := pathIndex x.p x.slot, pc := x.g0.ctx.pc
    stream := x.slot.toNat, laneIndex := x.p.pc, word := Sys2Proof.word (x.word / 2 ^ 64), mask := x.ex, parked := parked
    full := x.word }

/-- A reissued instruction of a parked path gives its accesses to the operation that counts them (R218): the lanes `act` of the
path are parked no more, whether their guard still holds or not. -/
def Group.rejoin (g : Group) (slot : Bool) (id : Nat) (act : Word) (o : Op) : Group :=
  let g := g.setCtx (g.ctx.setPath slot { g.ctx.path slot with again := none })
  match g.op? id, o.work with
  | some x, .mem k d new =>
    match x.work with
    | .mem _ _ old => g.setOp { x with work := .mem k d (old ++ new), parked := x.parked &&& ~~~act }
    | _ => g
  | _, _ => { g with ops := g.ops ++ [{ o with id := g.nextOp, level := g.mode.level }], nextOp := g.nextOp + 1 }

/-- What the checks say of each lane. -/
abbrev LaneChecks := List (Nat × Checked)

/-- The lanes that trap, lowest first, with code and address. -/
def LaneChecks.traps (cs : LaneChecks) : List (Nat × Code × Nat) :=
  cs.filterMap fun c => match c.2 with | .trap k v => some (c.1, k, v) | _ => none
/-- The lanes whose page is absent. -/
def LaneChecks.absents (cs : LaneChecks) : List (Nat × Nat) :=
  cs.filterMap fun c => match c.2 with | .absent v => some (c.1, v / 4096) | _ => none
/-- The first page whose translation is missing, of those whose walk will end in a page fault or of the others: the lanes that miss
it, and the address of the first of them (R336, R341). -/
def LaneChecks.miss (cs : LaneChecks) (gone : Bool) : Option (Word × Nat) :=
  match cs.findSome? fun c => match c.2 with | .miss v b => if b = gone then some v else none | _ => none with
  | none => none
  | some v =>
    some (cs.foldl (fun m c =>
      match c.2 with
      | .miss w _ => if w / 4096 = v / 4096 then m ||| laneBit c.1 else m
      | _ => m) 0, v)

/-- What keeps the lanes from being performed, in the order of R57 and R216: a translation that is to be walked first, the precise
fault of the lowest faulting lane, a translation whose walk will end in a page fault. -/
def LaneChecks.stop (cs : LaneChecks) : Option ((Word × Nat) ⊕ (Code × Word × Nat)) :=
  match cs.miss false, cs.traps, cs.miss true with
  | some m, _, _ => some (.inl m)
  | none, (_, c, v) :: _, _ =>
    some (.inr (c, cs.traps.foldl (fun m t => if t.2.1 = c then m ||| laneBit t.1 else m) 0, v))
  | none, [], m => m.map .inl
/-- The accesses that may be performed, each with the shared-deterministic bit. -/
def LaneChecks.oks (cs : LaneChecks) : List (Acc × Bool) :=
  cs.filterMap fun c => match c.2 with | .ok a sd => some ({ a with lane := c.1 }, sd) | _ => none

/-- A lane memory instruction is issued: the precise fault of the lowest faulting lane (R216), then what is still to be translated
(R336), page faults (R25, R218), the places of R320, room in the flag and the path counters (R214), then its operation. An absent
page counts on the scene path (log 22). -/
def LaneIn.access (x : LaneIn) (k : MemKind) (kind : AccKind) (align size : Nat) (addr : Nat → Int) (d : Dst)
    (data : Nat → List Byte) : State × LAct :=
  let s := x.s
  let cs : LaneChecks := (lanesOf x.ex).map fun l => (l, s.check x.g kind align (addr l) size)
  match LaneChecks.stop cs with
  | some (.inr (c, mask, v)) => (s, .trap c mask 0 v)
  | some (.inl (m, v)) => (s.walkFor x.g0 { s.asker x.g0 1 kind.num (Sys2Proof.word x.p.pc) m v with lane := true }, .wait 12)
  | none =>
    let absent := LaneChecks.absents cs
    let oks : List Acc := (LaneChecks.oks cs).map fun a =>
      { a.1 with data := data a.1.lane
                 held := a.2 && kind != .read && (s.gridOf x.g0).strict && !s.holdsToken x.g0 }
    let pages := (absent.map (·.2)).eraseDups
    let page := pages.headD 0
    let parked := absent.foldl (fun m a => m ||| laneBit a.1) (0 : Word)
    let s1 := s.joinPages x.g0 pages
    let x := { x with g := x.g.unask pages, g0 := x.g0.unask pages }
    let paths : List Nat := (oks.map (fun (a : Acc) => a.path) ++ (if absent.isEmpty then [] else [3])).eraseDups
    let accs := if absent.isEmpty || x.maySplit then oks else []
    let o := x.memOp k d paths accs parked
    if !absent.isEmpty && (s.gridOf x.g0).aborts then (s1.abortBlock (s.blockOf x.g0) page, .stop)
    else if !absent.isEmpty && x.p.again.isSome then reparkPath x s1 page
    else if !absent.isEmpty && !x.maySplit then parkGroup x s1 page
    else if (oks.any (·.held) || !absent.isEmpty) && x.p.again.isNone && 4 ≤ x.g0.heldCount then (s, .wait 12)
    else
      let s2 := oks.foldl (fun t a => t.useAcc x.g0 a) s1
      match x.p.again with
      | some id => (s2, .go (x.g.rejoin x.slot id x.act o))
      | none =>
        if !x.g.ctx.canRaise x.flag paths then (s, .wait 12)
        else
          let g := x.g.push o
          (s2, .go (if absent.isEmpty then g else x.splitParked g parked page x.g.nextOp))

/-- Words of a lane's registers from a number on. -/
def LaneIn.words (x : LaneIn) (reg n l : Nat) : List Word := (List.range n).map fun i => x.g.vget (reg + i) l

/-- The data of a store: operand c, or the registers of a quad. -/
def LaneIn.storeData (x : LaneIn) (bytes l : Nat) : List Byte :=
  (wordBytes (if bytes = 16 then x.words x.l.vc.toNat 4 l else [lane x.c.lo l, lane x.c.hi l])).take bytes

/-- `vld` (R206, R209). -/
def execVld (l : LaneOp) (s : State) : Host.Outcome State Fault Refusal :=
  issueLaneS s (.vld l) fun x =>
    let n := moveBytes l.vc.toNat l.ty
    x.access (.load n (l.ty == .i32 && n < 4)) .read 1 n (x.addr l.vc.toNat) (.vec l.vd.toNat) fun _ => []
/-- `vst`. -/
def execVst (l : LaneOp) (s : State) : Host.Outcome State Fault Refusal :=
  issueLaneS s (.vst l) fun x =>
    let n := moveBytes l.vd.toNat l.ty
    x.access .store .write 1 n (x.addr l.vd.toNat) .none (x.storeData n)
/-- `vatom` (R211, R212). -/
def execVatom (l : LaneOp) (s : State) : Host.Outcome State Fault Refusal :=
  issueLaneS s (.vatom l) fun x =>
    let op := l.vc.toNat % 16
    let n := 4 * l.ty.regs
    x.access (.atomic { op := op, size := n }) .atomic n n (x.addr l.vc.toNat) (.vec l.vd.toNat) fun i =>
      wordBytes (x.words l.vd.toNat (if op = 9 then 2 * l.ty.regs else l.ty.regs) i)
/-- `vmred`. -/
def execVmred (l : LaneOp) (s : State) : Host.Outcome State Fault Refusal :=
  issueLaneS s (.vmred l) fun x =>
    let n := 4 * l.ty.regs
    x.access (.atomic { op := l.vd.toNat % 16, size := n }) .atomic n n (x.addr l.vd.toNat) .none (x.storeData n)
/-- `vprf` (R210): no visible effect. -/
def execVprf (l : LaneOp) (s : State) : Host.Outcome State Fault Refusal :=
  issueLane s (.vprf l) fun x => .go x.g

end Sys2Proof.Machine
end

