-- ==== Sys2Proof/Machine/Resources.lean ====
section
/-! DEFINITION. Resources of cores and columns (R28, R51) and the trial placement of a block (R29, R365). The order in which
seats are tried inside a core is the model's (log 9). -/
namespace Sys2Proof.Machine

/-- What a pending request keeps for its block beyond what the block holds (R34, R371). -/
def State.requestUse (s : State) (b : Block) (core : Nat) : CoreUse :=
  match b.req with
  | none => {}
  | some r =>
    let v := (((s.grid? b.grid).getD {}).variants[r.target]?).getD {}
    let o := (((s.grid? b.grid).getD {}).variants[b.variant]?).getD {}
    let seats := r.alloc.seats.filter fun x => x.2.core == core
    let share := r.alloc.shares.getD (core - b.core) (0, 0)
    let shares := if share.2 = 0 then [] else [share]
    { ranges := shares ++ seats.map fun x => windowRange x.2.quarter x.2.vbase v.vregs
      shares := shares
      uniform := seats.map fun x => (x.2.quarter, v.uregs - o.uregs)
      tiles := seats.length * (v.acc - o.acc) }

/-- Two uses together. -/
def CoreUse.join (a b : CoreUse) : CoreUse :=
  { ranges := a.ranges ++ b.ranges, shares := a.shares ++ b.shares, quarters := a.quarters ++ b.quarters, uniform := a.uniform ++ b.uniform
    tiles := a.tiles + b.tiles, bars := a.bars + b.bars, slots := a.slots ++ b.slots }

/-- The block has a place on the core. -/
def Block.on (b : Block) (die core : Nat) : Bool :=
  b.die == die && b.holds && decide (b.core ≤ core) && decide (core < b.core + b.span)

/-- What other ranges leave of a range. -/
def minusRanges (r : Nat × Nat) : List (Nat × Nat) → List (Nat × Nat)
  | [] => if r.2 = 0 then [] else [r]
  | t :: ts =>
    if overlaps r t then
      minusRanges (r.1, t.1 - r.1) ts ++ minusRanges (t.1 + t.2, r.1 + r.2 - (t.1 + t.2)) ts
    else minusRanges r ts

/-- What a block gives when it goes from a variant to a smaller one: `a` before, `b` after, its uniform registers and tiles
by group (R370). -/
def CoreUse.less (a b : CoreUse) : CoreUse :=
  { ranges := a.ranges.flatMap fun r => minusRanges r b.ranges
    shares := a.shares.flatMap fun r => minusRanges r b.ranges
    uniform := (a.uniform.zip b.uniform).map fun x => (x.1.1, x.1.2 - x.2.2)
    tiles := a.tiles - b.tiles }

/-- The state in which nothing is kept for a unit: what the unit itself may take. -/
def State.unreserve (s : State) (u : Nat × Nat) : State :=
  { s with reserves := s.reserves.filter fun r => (r.grid, r.first) != u }

/-- What is kept on a core for units that wait (R370). -/
def State.reserveUse (s : State) (die core : Nat) : CoreUse :=
  (s.reserves.filter fun r => r.die == die && r.core == core).foldl (fun u r => u.join r.use) {}

/-- What is taken on a core by the blocks that the predicate keeps, and what is kept for units. -/
def State.coreUse (s : State) (keep : Block → Bool) (die core : Nat) : CoreUse :=
  (s.blocks.filter fun b => b.on die core && keep b).foldl
    (fun u b => (u.join (s.blockUse b core)).join (s.requestUse b core)) (s.reserveUse die core)

/-- The lowest start at or above `lo`, a multiple of `al`, of a free run of `n` in a range that ends at `hi`. -/
def firstFit (used : List (Nat × Nat)) (al lo hi n : Nat) : Nat → Option Nat
  | 0 => none
  | fuel + 1 =>
    if hi < lo + n then none
    else
      match used.find? fun r => overlaps r (lo, n) with
      | none => some lo
      | some r => firstFit used al (roundUp (r.1 + r.2) al) hi n fuel

/-- A free run of bytes in a list of ranges. -/
def fitBytes (used : List (Nat × Nat)) (al lo hi n : Nat) : Option Nat := firstFit used al lo hi n (used.length + 1)

/-- Bytes of a window of a variant with its group frame (R28). -/
def Variant.windowBytes (v : Variant) : Nat := 128 * (v.vregs + Config.frameUnits)

/-- The lowest free window in a quarter. -/
def CoreUse.window (u : CoreUse) (v : Variant) (q : Nat) : Option Nat :=
  fitBytes u.ranges 128 (q * 393216) ((q + 1) * 393216) v.windowBytes

/-- A seat on a quarter for a group of a variant. -/
def CoreUse.seatOn (u : CoreUse) (v : Variant) (core q : Nat) : Option Seat :=
  let uni := ((u.uniform.filter fun x => x.1 == q).map (·.2)).sum
  if 16 ≤ u.quarters.count q || Config.quarterUniform < uni + v.uregs + 32 then none
  else
    match u.window v q with
    | none => none
    | some a =>
      match (List.range 64).find? fun k => !u.slots.contains k with
      | none => none
      | some k => some { core := core, quarter := q, vbase := (a - q * 393216) / 128, rslot := k }

/-- A seat on the quarter with the fewest groups that has one. -/
def CoreUse.seat (u : CoreUse) (v : Variant) (core : Nat) : Option Seat :=
  let order := (List.range 17).flatMap fun n => (List.range 4).filter fun q => u.quarters.count q == n
  order.findSome? fun q => u.seatOn v core q

/-- The use with a group seated. -/
def CoreUse.sit (u : CoreUse) (v : Variant) (x : Seat) : CoreUse :=
  { u with
    ranges := windowRange x.quarter x.vbase v.vregs :: u.ranges
    quarters := x.quarter :: u.quarters
    uniform := (x.quarter, v.uregs + 32) :: u.uniform
    tiles := u.tiles + v.acc
    slots := x.rslot :: u.slots }

/-- Seats for groups, in order. -/
def CoreUse.seats (v : Variant) (core : Nat) : CoreUse → List Nat → Option (List (Nat × Seat) × CoreUse)
  | u, [] => some ([], u)
  | u, i :: t =>
    match u.seat v core with
    | none => none
    | some x =>
      match CoreUse.seats v core (u.sit v x) t with
      | none => none
      | some (xs, u') => some ((i, x) :: xs, u')

/-- The scratchpad share of a span position, of the bytes of the whole scratchpad: whole KiB (R28). -/
def shareBytes (scratch span pos : Nat) : Nat :=
  1024 * (scratch / 1024 / span + (if pos < scratch / 1024 % span then 1 else 0))

/-- Scratchpad bytes that lie in a quarter's share of the core store. -/
def CoreUse.taken (u : CoreUse) (q : Nat) : Nat :=
  (u.shares.map fun (r : Nat × Nat) => min (r.1 + r.2) ((q + 1) * 393216) - max r.1 (q * 393216)).sum

/-- The lowest place of a share in a quarter, of the quarters with the fewest scratchpad bytes first. -/
def CoreUse.lowest (u : CoreUse) (share : Nat) : Option Nat :=
  (sortRank (fun q => [u.taken q]) (List.range 4)).findSome? fun q =>
    fitBytes u.ranges 128 (q * 393216) ((q + 1) * 393216) share

/-- Every other place where a share is tried, ascending: a whole number of windows above the start of each free run. A share
that can stand anywhere beside the windows that are to be seated can stand at one of these. -/
def CoreUse.sites (u : CoreUse) (win share : Nat) : List Nat :=
  sortRank (fun a => [a]) <| (((List.range 4).map (· * 393216) ++ u.ranges.map fun (r : Nat × Nat) => r.1 + r.2).flatMap fun x =>
    (List.range 17).map fun j => x + j * win).filter fun a =>
      a + share ≤ Config.coreStoreBytes && !(u.ranges.any fun r => overlaps r (a, share))

/-- A share on one core, with the seats that `f` finds beside it for `n` groups: the share above the seats in one quarter,
else the share first (log 9). -/
def CoreUse.shareWith {α : Type} (u : CoreUse) (win share n : Nat) (f : CoreUse → Option (α × CoreUse)) :
    Option ((Nat × Nat) × α) :=
  match f u with
  | none => none
  | some (r, u') =>
    if share = 0 then some ((0, 0), r)
    else if Config.coreStoreBytes < (u.ranges.map (·.2)).sum + share + n * win then none
    else
      match u'.lowest share with
      | some a => some ((a, share), r)
      | none =>
        (u.sites win share).findSome? fun a =>
          (f { u with ranges := (a, share) :: u.ranges }).map fun x => ((a, share), x.1)

/-- A place on one core for the groups of a span position: the share, and the seats beside it. -/
def CoreUse.place (u : CoreUse) (v : Variant) (core nBar share : Nat) (gs : List Nat) :
    Option ((Nat × Nat) × List (Nat × Seat)) :=
  if Config.coreTiles < u.tiles + v.acc * gs.length || Config.coreBarriers < u.bars + nBar then none
  else u.shareWith v.windowBytes share gs.length fun x => CoreUse.seats v core x gs

/-- Own-column ranges that are taken in a column bank by blocks that the predicate keeps, or kept for units (R51, R370). -/
def State.colUse (s : State) (keep : Block → Bool) (die col : Nat) : List (Nat × Nat) :=
  ((s.reserves.filter fun r => r.die == die && coreCol r.core == col && r.col.2 != 0).map (·.col)) ++
  (s.blocks.filter fun b => b.die == die && b.holds && keep b && b.colBytes != 0).filterMap fun b =>
    if coreCol b.core ≤ col && col < coreCol b.core + b.span then some (b.cols.getD (col - coreCol b.core) 0, b.colBytes)
    else none

/-- The page-mapped ranges of the partitions that hold a column (R346, R365). -/
def State.colPaged (s : State) (die col : Nat) : List (Nat × Nat) :=
  (s.parts.filter fun p => p.die == die).filterMap fun p =>
    let sh := p.share die
    if sh.col0 ≤ col && col < sh.col0 + sh.cols && sh.cbLo < sh.cbHi then some (4096 * sh.cbLo, 4096 * (sh.cbHi - sh.cbLo))
    else none

/-- An own-column allocation in each spanned column. -/
def State.placeCols (s : State) (keep : Block → Bool) (die core span bytes : Nat) : Option (List Nat) :=
  if bytes = 0 then some (List.replicate span 0)
  else (List.range span).mapM fun i =>
    let col := coreCol core + i
    fitBytes (s.colUse keep die col ++ s.colPaged die col) 4096 0 4194304 bytes

/-- A trial placement of a block on the span whose leftmost core is `core`: the groups listed, in a variant of the grid, with
`nBar` barrier slots on each core. Only the blocks that `keep` holds count (R29, R365, R370). -/
def State.tryPlace (s : State) (keep : Block → Bool) (k : Grid) (v : Variant) (core nBar : Nat) (gs : List Nat) : Option Alloc :=
  match (List.range v.span).mapM fun i =>
    (s.coreUse keep k.die (core + i)).place v (core + i) nBar (shareBytes v.scratch v.span i) (gs.filter fun j => j / 64 == i) with
  | none => none
  | some xs =>
    (s.placeCols keep k.die core v.span k.colBytes).map fun cols =>
      { core := core, shares := xs.map (·.1), cols := cols, seats := xs.flatMap (·.2) }

/-- Barrier slots that a block of `n` barriers gets on each core of a span: all of them where they are free (R28), else what
the fullest core has left (R325). -/
def State.freeBars (s : State) (die core span n : Nat) : Nat :=
  (List.range span).foldl (fun m i => min m (Config.coreBarriers - (s.coreUse (fun _ => true) die (core + i)).bars)) n

/-- The cores of a partition's rectangle on a stack, ascending (R346). -/
def Part.cores (p : Part) : List Nat :=
  let sh := p.share p.die
  if !sh.enable then []
  else (List.range 128).filter fun c =>
    sh.row0 ≤ coreRow c && coreRow c < sh.row0 + sh.rows && sh.col0 ≤ coreCol c && coreCol c < sh.col0 + sh.cols

/-- The span of a variant that starts at a core lies in the rectangle (R365). -/
def Part.spanFits (p : Part) (core span : Nat) : Bool :=
  let sh := p.share p.die
  decide (coreCol core + span ≤ sh.col0 + sh.cols)

end Sys2Proof.Machine
end

