-- ==== Sys2Proof/Machine/ScalarMem.lean ====
section
/-! DEFINITION. Scalar loads, stores and atomics (R155 to R157). -/
namespace Sys2Proof.Machine

/-- The word that the issuing stream fetched. -/
def State.curWord (s : State) : Nat := (s.cur.map (·.word)).getD 0

/-- The exact address of a scalar operand: an even pair and a scaled offset (R43, R155). -/
def scalarAddr (g : Group) (a : Nat) (off : Int) : Int := (g.u64 a).toNat + off

/-- The scaled offset of a load or store. -/
def scalarOff (o : BitVec 7) (size : Nat) : Int := o.toInt * size

/-- The access goes through the register alias window. -/
def Acc.isAlias (a : Acc) : Bool := a.locs.any fun r => match r.1 with | .regWindow _ => true | _ => false

/-- The operation of a scalar access at the PC of its group. -/
def scalarOp (g : Group) (w : Nat) (flag : Option Nat) (path : Nat) (k : MemKind) (d : Dst) (a : Acc) : Op :=
  { work := .mem k d [a], flag := flag, paths := [path], slot := 3, pc := g.ctx.pc, word := word w }

/-- A scalar access is issued: the checks of R57, then the waits for a translation (R336), a page (R25), the lane stream
(R55), the token (R38) and room in the flag and the path counter (R59, R132). -/
def State.scalarAccess (s : State) (g : Group) (k : MemKind) (kind : AccKind) (align size : Nat) (va : Int)
    (flag : Option Nat) (d : Dst) (data : List Byte) : State × Act :=
  match s.check g kind align va size with
  | .trap c a => if c = .feedPendingWrite && !g.ctx.laneIdle then (s, .wait 9 g) else (s, .trap c 0 a)
  | .miss a _ => (s.walkFor g (s.asker g 0 kind.num g.ctx.pc 0 a), .wait 12 g)
  | .absent a =>
    if (s.gridOf g).aborts then ((s.joinPage g (a / 4096)).abortBlock (s.blockOf g) (a / 4096), .stop)
    else (s.joinPage g (a / 4096), .wait 1 { g with pageWait := some (a / 4096) })
  | .ok a sd =>
    if a.isAlias && !g.ctx.laneIdle then (s, .wait 9 g)
    else if sd && kind != .read && (s.gridOf g).strict && !s.holdsToken g then (s, .wait 4 g)
    else if !g.ctx.canRaise flag [a.path] then (s, .wait 12 g)
    else
      (s.useAcc g a,
       .adv ((if a.isAlias then { g with pageWait := none }.pastLanes else { g with pageWait := none }).push
         (scalarOp g s.curWord flag a.path k d { a with data := data, path := a.path })))

/-- A load of `n` bytes into gD, or into a pair. -/
def scalarLoad (s : State) (d a : Reg) (f : FlagField) (o : BitVec 7) (n : Nat) (sgn : Bool) :
    Host.Outcome State Fault Refusal :=
  issueScalarS s [d.toNat, a.toNat] (reads := [a.toNat]) fun s g =>
    s.scalarAccess g (.load n sgn) .read 1 n (scalarAddr g a.toNat (scalarOff o n)) (flagOf f) (.uni d.toNat) []

/-- A store of the low `n` bytes of gD, or of a pair. -/
def scalarStore (s : State) (d a : Reg) (f : FlagField) (o : BitVec 7) (n : Nat) : Host.Outcome State Fault Refusal :=
  issueScalarS s [d.toNat, a.toNat] fun s g =>
    s.scalarAccess g .store .write 1 n (scalarAddr g a.toNat (scalarOff o n)) (flagOf f) .none
      (leBytes n (g.u64 d.toNat).toNat)

/-- `ld.b`. -/
def execLdB (d a : Reg) (f : FlagField) (o : BitVec 7) (s : State) : Host.Outcome State Fault Refusal :=
  scalarLoad s d a f o 1 true
/-- `ld.bn`. -/
def execLdBn (d a : Reg) (f : FlagField) (o : BitVec 7) (s : State) : Host.Outcome State Fault Refusal :=
  scalarLoad s d a f o 1 false
/-- `ld.h`. -/
def execLdH (d a : Reg) (f : FlagField) (o : BitVec 7) (s : State) : Host.Outcome State Fault Refusal :=
  scalarLoad s d a f o 2 true
/-- `ld.hn`. -/
def execLdHn (d a : Reg) (f : FlagField) (o : BitVec 7) (s : State) : Host.Outcome State Fault Refusal :=
  scalarLoad s d a f o 2 false
/-- `ld.w`. -/
def execLdW (d a : Reg) (f : FlagField) (o : BitVec 7) (s : State) : Host.Outcome State Fault Refusal :=
  scalarLoad s d a f o 4 false
/-- `ld.d`. -/
def execLdD (d a : Reg) (f : FlagField) (o : BitVec 7) (s : State) : Host.Outcome State Fault Refusal :=
  scalarLoad s d a f o 8 false
/-- `st.b`. -/
def execStB (d a : Reg) (f : FlagField) (o : BitVec 7) (s : State) : Host.Outcome State Fault Refusal :=
  scalarStore s d a f o 1
/-- `st.h`. -/
def execStH (d a : Reg) (f : FlagField) (o : BitVec 7) (s : State) : Host.Outcome State Fault Refusal :=
  scalarStore s d a f o 2
/-- `st.w`. -/
def execStW (d a : Reg) (f : FlagField) (o : BitVec 7) (s : State) : Host.Outcome State Fault Refusal :=
  scalarStore s d a f o 4
/-- `st.d`. -/
def execStD (d a : Reg) (f : FlagField) (o : BitVec 7) (s : State) : Host.Outcome State Fault Refusal :=
  scalarStore s d a f o 8

/-- The operand bytes of an atomic: one value, or expected then new for `cas` (R157). -/
def atomData (g : Group) (d size op : Nat) : List Byte :=
  let n := size / 4
  wordBytes ((List.range (if op = 9 then 2 * n else n)).map fun i => g.u (d + i))

/-- `atom` (R157): naturally aligned, or MISALIGNED. -/
def execAtom (d a : Reg) (f : FlagField) (z : Bool) (o : BitVec 4) (s : State) : Host.Outcome State Fault Refusal :=
  let size := if z then 8 else 4
  issueScalarS s [d.toNat, a.toNat] (reads := a.toNat :: upFrom d.toNat ((if o.toNat = 9 then 2 else 1) * (size / 4))) fun s g =>
    s.scalarAccess g (.atomic { op := o.toNat, size := size }) .atomic size size (scalarAddr g a.toNat 0) (flagOf f)
      (.uni d.toNat) (atomData g d.toNat size o.toNat)

end Sys2Proof.Machine
end

