-- ==== Sys2Proof/Machine/ScalarControl.lean ====
section
/-! DEFINITION. Scalar control flow (R158, R160), the dispatch of lane blocks (R161) and the waits of R162 and R163. -/
namespace Sys2Proof.Machine

/-- The code sections of the group's mode: scalar base and size, lane base and size (R143, R306, R308). -/
def State.sections (s : State) (g : Group) : Nat × Nat × Nat × Nat :=
  if g.mode = .kernel then
    let v := s.variantOf g
    (v.scalarVa, v.scalarSize, v.laneVa, v.laneSize)
  else
    let v := (s.gridOf g).vector
    (v.scalarBase, v.scalarSize, v.laneBase, v.laneSize)

/-- Bytes of the scalar section. -/
def State.scalarSize (s : State) (g : Group) : Nat := (s.sections g).2.1
/-- Instructions of the lane section. -/
def State.laneCount (s : State) (g : Group) : Nat := (s.sections g).2.2.2 / 12

/-- A taken branch: ACCESS_VIOLATION for a target outside the section (R158). -/
def branchTo (s : State) (g g' : Group) (target : Int) : Act :=
  if target < 0 || (s.scalarSize g : Int) - 4 < target then .fault .accessViolation
  else .jump g' (word target.toNat)

/-- The target of a relative branch. -/
def relTarget (g : Group) (words : Int) : Int := g.ctx.pc.toNat + 4 * words

/-- A jump through a register: MISALIGNED, then ACCESS_VIOLATION (R158), in an order that the model chooses (log 107). -/
def jumpReg (s : State) (g : Group) (v : Word) : Act :=
  if v.toNat % 4 ≠ 0 then .fault .misaligned else branchTo s g g v.toNat

/-- `jmp`. -/
def execJmp (o : BitVec 21) (s : State) : Host.Outcome State Fault Refusal :=
  issueScalar s [] fun s g => branchTo s g g (relTarget g o.toInt)
/-- `bq`. -/
def execBq (q : QReg) (n : Bool) (o : BitVec 21) (s : State) : Host.Outcome State Fault Refusal :=
  issueScalar s [] fun s g =>
    if g.ctx.qget q.toNat != n then branchTo s g g (relTarget g o.toInt) else .adv g
/-- `call`. -/
def execCall (o : BitVec 21) (s : State) : Host.Outcome State Fault Refusal :=
  issueScalar s [] fun s g => branchTo s g (g.setU 1 (g.ctx.pc + 4)) (relTarget g o.toInt)
/-- `ret`. -/
def execRet (s : State) : Host.Outcome State Fault Refusal :=
  issueScalar s [] (reads := [1]) fun s g => jumpReg s g (g.u 1)
/-- `jr`. -/
def execJr (a : Reg) (s : State) : Host.Outcome State Fault Refusal :=
  issueScalar s [a.toNat] fun s g => jumpReg s g (g.u a.toNat)
/-- `loop`. With g0 the counter is 0, so it wraps and branches (R147, R158). -/
def execLoop (d : Reg) (i : BitVec 11) (s : State) : Host.Outcome State Fault Refusal :=
  issueScalar s [d.toNat] fun s g =>
    let v := g.u d.toNat - 1
    let g' := g.setU d.toNat v
    if v ≠ 0 then branchTo s g g' (relTarget g i.toInt) else .adv g'
/-- `yield`. -/
def execYield (s : State) : Host.Outcome State Fault Refusal := issueScalar s [] fun _ g => .adv { g with yielded := true }
/-- `nop`. -/
def execNop (s : State) : Host.Outcome State Fault Refusal := issueScalar s [] fun _ g => .adv g

/-- A lane block enters the queue, or the stream waits for room (R18). -/
def enqueueLane (g : Group) (start : Nat) (mask : Word) : Act :=
  if 8 ≤ g.ctx.queue.length then .wait 11 g
  else .adv (g.setCtx { g.ctx with queue := g.ctx.queue ++ [(start, mask)] })

/-- `lrun` (R161). -/
def execLrun (i : BitVec 16) (s : State) : Host.Outcome State Fault Refusal :=
  issueScalar s [] fun s g =>
    if s.laneCount g ≤ i.toNat then .fault .accessViolation else enqueueLane g i.toNat (BitVec.allOnes 32)
/-- `lrunx`. -/
def execLrunx (a b : Reg) (s : State) : Host.Outcome State Fault Refusal :=
  issueScalar s [a.toNat, b.toNat] fun s g =>
    let i := (g.u a.toNat).toNat
    if 65536 ≤ i then .fault .reservedField
    else if s.laneCount g ≤ i then .fault .accessViolation
    else enqueueLane g i (g.u b.toNat)

/-- `lsync` (R162). -/
def execLsync (s : State) : Host.Outcome State Fault Refusal :=
  issueScalar s [] fun _ g => if g.ctx.laneIdle then .adv g.pastLanes else .wait 9 g

/-- `fwait`: deferred faults of its flags are delivered, and feeds of those flags are observed (R156, R163, R255). -/
def execFwait (m : BitVec 12) (s : State) : Host.Outcome State Fault Refusal :=
  issueScalar s [] fun s g =>
    let fs := flagMask m.toNat
    if !(fs.all fun f => g.ctx.flag f == 0) then .wait 7 g
    else g.delivering (g.flagFault fs) (.adv (g.mapFeeds (Feed.scalarSees g.ctx.queue.length fs)))

/-- `waitp` (R163): a deferred fault of its path that waits is delivered when the bound holds, also where it held from the first: a
choice of the model (log 114). A bound of 255 or more ends at once. -/
def execWaitp (a : Reg) (p : BitVec 4) (s : State) : Host.Outcome State Fault Refusal :=
  issueScalar s [a.toNat] fun _ g =>
    let n := (g.u a.toNat).toNat
    if 255 ≤ n then .adv g
    else if n < g.ctx.counter p.toNat then .wait 8 g
    else g.delivering (g.pathFault p.toNat) (.adv g)

/-- A landing counter has ended (R60). -/
def landed (v : Word) : Bool := v.getLsbD 31 || v.toNat % 2 ^ 31 == 0

/-- `waitz`. -/
def execWaitz (a : Reg) (s : State) : Host.Outcome State Fault Refusal :=
  issueScalar s [a.toNat] fun _ g => if landed (g.u a.toNat) then .adv g else .wait 6 g

end Sys2Proof.Machine
end

