-- ==== Sys2Proof/Machine/Sync.lean ====
section
/-! DEFINITION. The commit token (R38, R39, R88), barriers (R164, R165), fences (R69, R166), switch points and conversion
(R34, R35, R146, R168), `exit` (R159), cross-stack semaphores (R174) and `waitm` (R163). -/
namespace Sys2Proof.Machine

/-- An instruction of which a handler takes ACCESS_VIOLATION (R306): its registers are checked first (R137), and those that it reads
may be uncorrectable (R311). -/
def kernelOnly (g : Group) (regs : List Nat) (s : State) (k : State × Act) (reads : List Nat := regs) : State × Act :=
  match g.uOut regs with
  | some r => (s, .trap .registerRange (word r) 0)
  | none =>
    if g.inHandler then (s, .fault .accessViolation)
    else if s.badUni g reads then (s, .fault .uncorrectable)
    else k

/-! ### The commit token -/

/-- A barrier of the block. -/
def Block.bar (b : Block) (n : Nat) : Barrier := b.bars.getD n {}

/-- The generation of the group's last arrival has completed, or there was none. -/
def State.arrivalDone (s : State) (g : Group) (n : Nat) : Bool :=
  match g.barLast.getD n none with
  | some gen => gen != ((s.blockOf g).bar n).gen
  | none => true

/-- The barrier at which the `bar` at the PC has arrived (R165). -/
def Group.barHere (g : Group) : Option Nat := if g.barPc = g.k.pc then g.barAt else none

/-- The group waits in a barrier: for the generation of its `bar`, or for that which another barrier form awaits, which has
not completed. A group that waits in a `swpt` does not. -/
def State.inBarrier (s : State) (g : Group) : Bool :=
  g.mode == .kernel && g.whyS == some 3 && !g.exited && g.swAt.isNone && !g.swDrain &&
    (match g.barHere, g.barW with
     | some n, _ => !s.arrivalDone g n
     | none, some w => w == ((s.blockOf g).bar g.barWaited).gen
     | none, none => false)

/-- A request is withdrawn: groups that wait at a switch point, or for what comes before it, issue their `swpt` again and
go on (R36, R39). -/
def State.withdraw (s : State) (b : Nat) : State :=
  { s.modBlock b fun x => { x with req := none } with
    groups := s.groups.map fun g => if g.block == b then { g with swAt := none, swDrain := false } else g }

/-- The group receives the token: TOKEN_ORDER in a barrier (R38), a request under which it waits at its switch point is withdrawn (R39), and,
a choice of the model, one under which it still drains there (R34, log 142). -/
def State.receive (s : State) (g : Group) : State :=
  if s.inBarrier g then
    s.raise g 3 { code := .tokenOrder, delivery := .asynchronous, pc := g.k.pc, resume := g.k.pc }
  else if g.swAt.isSome || g.swDrain then s.withdraw g.block
  else s

/-- Identifiers of the groups of a strict grid that have not exited, among the blocks that have started, and the first
of those that have not. -/
def State.holders (s : State) (k : Grid) : List Nat :=
  let live := (s.blocks.filter fun b => b.grid == k.uid && b.st != .finished && b.st != .retired).flatMap fun b =>
    ((List.range k.groups).filter fun i =>
      match s.groups.find? fun g => g.block == b.uid && g.index == i with
      | some g => !g.exited
      | none => !(b.keeps.any fun x => x.index == i && x.exited)).map fun i => 192 * b.index + i
  live ++ (if k.next < k.blocks then [192 * k.next] else [])

/-- The lesser of what is there. -/
def leastOf (xs : List Nat) : Option Nat := xs.foldl (fun m x => some (match m with | some y => min x y | none => x)) none

/-- The token leaves an identifier for the next group of the grid that has not exited (R38). -/
def State.passToken (s : State) (k : Grid) (from_ : Nat) : State :=
  let ids := s.holders k
  let next := (leastOf (ids.filter fun i => from_ < i)).orElse fun _ => leastOf ids
  match next with
  | none => { s with
      tokens := s.tokens.filter fun (t : Token) => !(t.die == k.die && t.part == k.part && t.grid == k.uid) }
  | some n =>
    let s1 : State := { s with
      tokens := s.tokens.map fun (t : Token) =>
        if t.die == k.die && t.part == k.part && t.grid == k.uid then { t with at_ := n } else t }
    match s1.groups.find? fun g => (s1.blockOf g).grid == k.uid && s1.logicalId g == n && !g.exited with
    | some g => s1.receive g
    | none => s1

/-- A strict grid. -/
def State.strictG (s : State) (g : Group) : Bool := (s.gridOf g).strict

/-- `cpass` (R167): waits for the token, then as `fence.rel` (R88), and passes it. -/
def execCpass (s : State) : Host.Outcome State Fault Refusal :=
  issueScalarS s [] fun s g =>
    kernelOnly g [] s <|
      if !s.strictG g then (s, .adv g)
      else if !s.holdsToken g then (s, .wait 4 g)
      else s.asRel g (s.passToken (s.gridOf g) (s.logicalId g), .adv g)

/-! ### Barriers -/

/-- An arrival: the first of a generation fixes its count, the last completes it (R164). -/
def Barrier.arrive (x : Barrier) (groups clk : Nat) (count : Word) : Barrier :=
  let exp := if x.arr = 0 then (if count = 0 then groups else count.toNat) else x.exp
  if x.arr + 1 = exp then { gen := x.gen + 1 }
  else { x with arr := x.arr + 1, exp := exp, first := some (x.first.getD clk) }

/-- The group arrives at a barrier. -/
def State.arrive (s : State) (g : Group) (n : Nat) (count : Word) : State :=
  s.modBlock g.block fun b =>
    { b with bars := setNth b.bars n ((b.bar n).arrive (s.gridOf g).groups s.clk count) }

/-- The group after its arrival. -/
def Group.arrived (g : Group) (n : Nat) (gen : Word) : Group := { g with barLast := setNth g.barLast n (some gen) }

/-- Checks that the barrier forms share: the number, the register, the mode, the token (R38, R137, R164, R165, R306). A form whose
generation has completed while it waited was issued before the group held the token, and waits in the barrier no more: the token
that has come since is nothing to it (R38). -/
def barCheck (s : State) (g : Group) (n : Nat) (regs : List Nat) (k : State × Act) (passed : Bool := false) : State × Act :=
  if (s.blockOf g).nBar ≤ n then (s, .fault .reservedField)
  else kernelOnly g regs s (if s.strictG g && s.holdsToken g && !passed then (s, .fault .tokenOrder) else k)

/-- A group whose last arrival at a barrier has not completed waits for that before it arrives again: it never counts twice in
one generation (R165). -/
def Group.waitLast (g : Group) (n : Nat) : Act := .wait 3 { g with barW := g.barLast.getD n none, barWaited := n }

/-- The group after a barrier form whose generation has completed: it waits as `fence.acq`, and deferred faults are delivered
(R71, R156, R164). -/
def Group.barDone (g g' : Group) : Act := g.asAcq (g.delivering (fun _ => true) (.adv g'))

/-- `bar` (R164): waits as `fence.rel`, arrives, and waits for its generation. -/
def execBar (d : Reg) (n : BitVec 4) (s : State) : Host.Outcome State Fault Refusal :=
  issueScalarS s [] fun s g =>
    barCheck s g n.toNat [d.toNat] (passed := g.barHere = some n.toNat && s.arrivalDone g n.toNat) <|
      if g.barHere = some n.toNat then
        if s.arrivalDone g n.toNat then (s, g.barDone ({ g with barAt := none } : Group).pastLanes) else (s, .wait 3 g)
      else if !s.arrivalDone g n.toNat then (s, g.waitLast n.toNat)
      else
        s.asRel g <|
          let g1 := { g.arrived n.toNat ((s.blockOf g).bar n.toNat).gen with barWaited := n.toNat, barW := none }
          let s1 := s.arrive g n.toNat (g.u d.toNat)
          if s1.arrivalDone g1 n.toNat then (s1, .adv ({ g1 with barAt := none } : Group).pastLanes)
          else (s1, .wait 3 { g1 with barAt := some n.toNat, barPc := g.k.pc })

/-- `bara` (R164, R165): waits for its last arrival to complete, then as `fence.rel`, and arrives. -/
def execBara (d : Reg) (n : BitVec 4) (s : State) : Host.Outcome State Fault Refusal :=
  issueScalarS s [] fun s g =>
    barCheck s g n.toNat [d.toNat] <|
      if !s.arrivalDone g n.toNat then (s, g.waitLast n.toNat)
      else
        s.asRel g
          (s.arrive g n.toNat (g.u d.toNat),
           .adv { g.arrived n.toNat ((s.blockOf g).bar n.toNat).gen with barW := none })

/-- The generation for which a `barw` waits: that of the last arrival, or of the time when it began to wait, where it has. -/
def State.barwWants (s : State) (g : Group) (n : Nat) : Word :=
  let gen := ((s.blockOf g).bar n).gen
  (g.barLast.getD n none).getD (if g.barWaited = n then g.barW.getD gen else gen)

/-- `barw` (R67, R71, R164, R165): once the lane stream is idle, it waits for the generation of the last arrival, or of the
time when it began to wait, and then as `fence.acq`. For a group that has never arrived the current generation is that of the time
when its lane wait is over, not of its first issue: a choice of the model (log 145). -/
def execBarw (n : BitVec 4) (s : State) : Host.Outcome State Fault Refusal :=
  issueScalarS s [] fun s g =>
    let gen := ((s.blockOf g).bar n.toNat).gen
    let wanted := s.barwWants g n.toNat
    barCheck s g n.toNat [] (passed := g.barWaited = n.toNat && g.barW = some wanted && wanted != gen) <|
      if !g.ctx.laneIdle then (s, .wait 9 g)
      else if wanted != gen then (s, g.barDone ({ g with barW := none } : Group).pastLanes)
      else
        let s1 := s.modBlock g.block fun b =>
          { b with bars := setNth b.bars n.toNat { b.bar n.toNat with first := some ((b.bar n.toNat).first.getD s.clk) } }
        (s1, .wait 3 { g with barW := some wanted, barWaited := n.toNat })

/-! ### Fences -/

/-- `fence.acq` (R69). The model's memory is one coherent store, so nothing is left to invalidate (log 10). -/
def execFenceAcq (s : State) : Host.Outcome State Fault Refusal :=
  issueScalar s [] fun _ g => g.asAcq (g.delivering (fun _ => true) (.adv g.pastLanes))
/-- `fence.rel`. -/
def execFenceRel (s : State) : Host.Outcome State Fault Refusal :=
  issueScalarS s [] fun s g => s.asRel g (s, .adv g.pastLanes)
/-- `fence.ar`. -/
def execFenceAr (s : State) : Host.Outcome State Fault Refusal :=
  issueScalarS s [] fun s g => s.asRel g (s, .adv g.pastLanes)
/-- `opfence`. -/
def execOpfence (s : State) : Host.Outcome State Fault Refusal :=
  issueScalar s [] fun _ g =>
    if !g.ctx.laneIdle then .wait 9 g
    else if !g.opDone then .wait 8 g
    else g.delivering (fun _ => true) (.adv g.pastLanes)

/-! ### Switch points -/

/-- The bytes of a map's ranges in the old shares, by range identifier. -/
def State.savedRanges (s : State) (die : Nat) (b : Block) (m : Switch) : List (Nat × List Byte) :=
  m.ranges.map fun r =>
    (r.id, (List.range r.len).map fun i =>
      match shareByte die b.shares b.core (r.off + i) with
      | some key => Mem.byte s.core key
      | none => 0)

/-- A byte of the whole scratchpad of a block is stored. -/
def State.scratchStore (s : State) (die core : Nat) (shares : List (Nat × Nat)) (o : Nat) (v : Byte) : State :=
  match shareByte die shares core o with
  | some key => s.writeMem .core key [v]
  | none => s

/-- Bytes of the whole scratchpad of a block are stored from an offset on. -/
def State.scratchWrite (s : State) (die core : Nat) (shares : List (Nat × Nat)) : Nat → List Byte → State
  | _, [] => s
  | o, v :: t => (s.scratchStore die core shares o v).scratchWrite die core shares (o + 1) t

/-- Every byte of the shares of a block is zeroed, and belongs to its partition from now on (R348). -/
def State.clearShares (s : State) (die part : Nat) : Nat → List (Nat × Nat) → State
  | _, [] => s
  | core, (off, n) :: t =>
    (if n = 0 then s else (s.clearMem .core (coreKey die core off) n).noteOwner .core (coreKey die core off) n part).clearShares
      die part (core + 1) t

/-- The keys below a bound of registers that both maps mark. -/
def keepCells (per : Nat) (marked : Nat → Bool) (r : Regs) : Regs := r.filter fun c => marked (c.1 / per)

/-- A group converted to a new variant at a switch point (R35, R146, R261). -/
def Group.convert (g : Group) (v : Variant) (x : Seat) (a b : Switch) : Group :=
  { g with
    core := x.core, quarter := x.quarter, vbase := x.vbase, rslot := x.rslot
    vwin := v.vregs, uwin := v.uregs, awin := v.acc
    vreg := keepCells 32 (fun n => a.v.getLsbD n && b.v.getLsbD n) g.vreg
    ureg := keepCells 1 (fun n => a.g.getLsbD n && b.g.getLsbD n) g.ureg
    tile := keepCells 256 (fun n => n < min g.awin v.acc) g.tile
    k := if g.exited then g.k else { g.k with pc := word (b.off + 4) }
    swAt := none, swDrain := false, whyS := none }

/-- Where the words of a block's kept ranges that read as uncorrectable stand in its new shares: they stay so (R411). -/
def State.rangePoison (s : State) (b : Block) (a : Alloc) (ma mb : Switch) : List (Space × Nat) :=
  ma.ranges.flatMap fun x =>
    match mb.ranges.find? fun y => y.id == x.id with
    | none => []
    | some y => (List.range (x.len / 8)).filterMap fun i =>
      match shareByte b.die b.shares b.core (x.off + 8 * i), shareByte b.die a.shares a.core (y.off + 8 * i) with
      | some f, some t => if s.poisoned .core f 8 then some (.core, t) else none
      | _, _ => none

/-- The same of the vector registers that a group keeps: `key` is the first byte of its new window. -/
def State.windowPoison (s : State) (g : Group) (key : Nat) (ma mb : Switch) : List (Space × Nat) :=
  s.poison.filterMap fun p =>
    let o := p.2 - g.windowKey
    if p.1 == .core && decide (g.windowKey ≤ p.2) && decide (o < 128 * g.vwin) && ma.v.getLsbD (o / 128) && mb.v.getLsbD (o / 128)
    then some (.core, key + o) else none

/-- The uniform registers and tiles that a group of a converted block does not keep have valid checks: they read zero (R146). -/
def State.healDropped (s : State) (g : Group) (v : Variant) (ma mb : Switch) : State :=
  { s with poison := s.poison.filter fun p =>
      let o := p.2 % 2 ^ 20
      let kept := fun (r : Nat) => ma.g.getLsbD r && mb.g.getLsbD r
      !(p.2 / 2 ^ 20 == g.uid &&
        ((p.1 == .uniform && !(kept (o / 4) || kept (o / 4 + 1))) || (p.1 == .tile && decide (1024 * v.acc ≤ o)))) }

/-- The new windows of the groups of a converted block are zeroed before what they keep stands there (R146, R348). -/
def State.clearWindows (s : State) (die : Nat) (v : Variant) (xs : List Seat) : State :=
  xs.foldl (fun t x =>
    let w := windowRange x.quarter x.vbase v.vregs
    t.clearMem .core (coreKey die x.core w.1) w.2) s

/-- The switch table entry of a point. -/
def Variant.switch (v : Variant) (n : Nat) : Switch := (v.switches.find? fun e => e.n == n).getD {}

/-- What a converted block no longer holds is kept for the unit for which its request was posted (R370). -/
def State.keepFreed (s0 s1 : State) (u : Nat) (r : Request) : State :=
  match s0.block? u, s1.block? u with
  | some a, some b =>
    if r.upward then s1
    else { s1 with reserves := s1.reserves ++ (List.range a.span).map fun i =>
        { grid := r.forGrid, first := r.forBlock, die := a.die, core := a.core + i
          use := (s0.blockUse a (a.core + i)).less (s1.blockUse b (a.core + i)) } }
  | _, _ => s1

/-- The groups of a block with their seats in the place of a request. -/
def State.newSeats (s : State) (b : Block) (a : Alloc) : List (Group × Seat) :=
  (s.groupsOf b.uid).map fun g =>
    (g, ((a.seats.find? fun e => e.1 == g.index).map (·.2)).getD
      { core := g.core, quarter := g.quarter, vbase := g.vbase, rslot := g.rslot })

/-- The core stores after a conversion (R146): the new shares and windows are cleared and belong to the partition, the ranges that
both maps name have their bytes, and what read as uncorrectable and is kept stays so (R348, R411). -/
def State.convertStores (s : State) (b : Block) (part : Nat) (a : Alloc) (v : Variant) (ma mb : Switch) : State :=
  let old := s.savedRanges b.die b ma
  let seats := s.newSeats b a
  let bad := s.rangePoison b a ma mb ++
    seats.flatMap fun x => s.windowPoison x.1 (coreKey b.die x.2.core (windowRange x.2.quarter x.2.vbase v.vregs).1) ma mb
  let s1 := (s.clearWindows b.die v (seats.map (·.2))).clearShares b.die part a.core a.shares
  let s2 := mb.ranges.foldl (fun t x =>
    match old.find? fun y => y.1 == x.id with
    | some y => t.scratchWrite b.die a.core a.shares x.off y.2
    | none => t) s1
  let s3 := seats.foldl (fun t x => t.healDropped x.1 v ma mb) s2
  { s3 with poison := bad ++ s3.poison }

/-- VARIANT_CONVERSION: a block whose groups all wait at point `n` goes on in the target variant (R35, R146). A step of a `swpt` ends
there (R388). -/
def State.convertBlock (s : State) (b : Block) (r : Request) (n : Nat) : State :=
  let k := (s.grid? b.grid).getD {}
  let va := (k.variants[b.variant]?).getD {}
  let vb := (k.variants[r.target]?).getD {}
  let ma := va.switch n
  let mb := vb.switch n
  let s3 := (s.convertStores b k.part r.alloc vb ma mb).modBlock b.uid fun x =>
    { x with variant := r.target, switches := x.switches + 1, shares := r.alloc.shares, req := none
             core := r.alloc.core, span := vb.span }
  let seat := fun (g : Group) => ((s.newSeats b r.alloc).find? fun x => x.1.uid == g.uid).map (·.2)
  let gs := s3.groups.map fun g =>
    match seat g with
    | some x => (g.convert vb x ma mb).pastLanes
    | none => g
  let s4 := (gs.filter fun g => g.block == b.uid && !g.exited && g.stopS.step).foldl (fun t g => t.afterStep g 3 ma.off)
    { s3 with groups := gs }
  s.keepFreed s4 b.uid r

/-- A block with a pending request converts when every group waits at one switch number or has exited, but not once all have
exited (R34, R36). -/
def State.tryConvert (s : State) (b : Nat) : State :=
  match s.block? b with
  | none => s
  | some x =>
    match x.req with
    | none => s
    | some r =>
      let gs := s.groupsOf b
      if gs.all (·.exited) then s
      else
        match (gs.find? fun g => !g.exited).bind (·.swAt) with
        | none => s
        | some n => if gs.all fun g => g.exited || g.swAt == some n then s.convertBlock x r n else s

/-- The waits of R34 before a group counts as waiting at its switch point, with what it releases there as at a barrier
(R71). -/
def State.switchReady (s : State) (g : Group) : Bool :=
  g.ctx.laneIdle && g.ctx.flagsZero && s.relDone g && g.matrixDone && !s.partnerBusy g &&
    !(s.copies.any fun c => c.owner == g.uid)

/-- `swpt` (R34, R168). In a handler its ACCESS_VIOLATION (R306) comes before the RESERVED_FIELD of an offset that the variant does not
record: a choice of the model (log 129). -/
def execSwpt (n : BitVec 16) (s : State) : Host.Outcome State Fault Refusal :=
  issueScalarS s [] fun s g =>
    if n.toNat = 0 || 15 < n.toNat then (s, .fault .reservedField)
    else kernelOnly g [] s <|
      if !((s.variantOf g).switches.any fun e => e.n == n.toNat && e.off == g.k.pc.toNat) then (s, .fault .reservedField)
      else if (s.blockOf g).req.isNone then (s, .adv { g with swAt := none })
      else if !s.switchReady g then (s, .wait 3 { g with swDrain := true })
      else
        match g.due fun _ => true with
        | some d => (s, .deliver d)
        | none =>
          let g1 := { g with swAt := some n.toNat, swDrain := false, whyS := some 3 }
          ((s.setGroup g1).tryConvert g.block, .stop)

/-! ### Exit -/

/-- What the dispatcher keeps of a group whose block leaves (log 12). -/
def Group.keep (g : Group) : Keep :=
  { index := g.index, barLast := g.barLast, barAt := g.barAt, barPc := g.barPc, barW := g.barW, barWaited := g.barWaited, lost := g.lost, inJoin := g.inJoin
    exited := g.exited, exitPc := g.k.pc, live := g.live, stalls := g.stalls, held := g.frozen, nextOp := g.nextOp
    deferred := g.keptFaults, feeds := g.feeds, stimeHi := g.stimeHi, clkHi := g.clkHi
    segs := [g.segA, g.segB, g.segM].map fun x => ((x.map (·.len)).getD 0), vwin := g.vwin }

/-- What a block frees at its end is kept for the unit for which a request or a pre-emption is pending (R36, R370). -/
def State.keepLast (s : State) (u : Nat) : State :=
  match s.block? u with
  | none => s
  | some b =>
    let k := (s.grid? b.grid).getD {}
    { s with reserves := s.reserves ++ s.owed { b with shares := if k.hold && k.nbhd != 0 then [] else b.shares } }

/-- The last group of a block has exited: its resources are freed, its scratchpad only where the neighbourhood does not hold
it, and a pending request is withdrawn (R16, R31, R36, R368). -/
def State.finishBlock (s : State) (u : Nat) : State :=
  let gs := s.groupsOf u
  if gs.isEmpty || !(gs.all (·.exited)) then s
  else
    let s1 := (s.keepLast u).modBlock u fun b =>
      let k := (s.grid? b.grid).getD {}
      { b with
        st := .finished, shares := if k.hold && k.nbhd != 0 then b.shares else [], cols := [], colBytes := 0, req := none
        wanted := none, extents := []
        keeps := gs.map Group.keep ++ b.keeps.filter fun x => !(gs.any fun g => g.index == x.index) }
    { s1 with groups := s1.groups.filter fun g => g.block != u }

/-- The waits of `exit` (R159, R249): the lane stream, flags and counters, matrix operations; a holder of the token
waits as `fence.rel` (R88). -/
def State.exitWait (s : State) (g : Group) : Option Reason :=
  if !g.ctx.laneIdle then some 9
  else if !g.ctx.flagsZero || !g.pathsZeroAll then some 8
  else if !g.matrixDone || s.partnerBusy g then some 10
  else if s.holdsToken g && !s.relDone g then some 8
  else none

/-- `exit`: the group retires, its segments are released, the token passes, and a pending switch may be met (R34, R38,
R159, R235). -/
def execExit (s : State) : Host.Outcome State Fault Refusal :=
  issueScalarS s [] fun s g =>
    kernelOnly g [] s <|
      match s.exitWait g with
      | some why => (s, .wait why g)
      | none =>
        match g.due fun _ => true with
        | some d => (s, .deliver d)
        | none =>
          let g1 := { g with
            exited := true, segA := none, segB := none, segM := none, feeds := [], whyS := none, swAt := none }
          let s1 := s.issued g1 3 g.k.pc.toNat
          let s2 := if s.strictG g && s.holdsToken g then s1.passToken (s.gridOf g) (s.logicalId g) else s1
          ((s2.tryConvert g.block).finishBlock g.block, .stop)

/-! ### Cross-stack semaphores -/

/-- The semaphores of a partition lie at the hub. -/
def State.sem (s : State) (p n : Nat) : Word := s.reg 0 (pkSem p n)
/-- 1 is added to a semaphore; at 0xFFFF_FFFF it stays (R174). -/
def State.semUp (s : State) (p n : Nat) : State :=
  let v := s.sem p n
  if v = BitVec.allOnes 32 then s else s.setReg 0 (pkSem p n) (v + 1)
/-- 1 is subtracted. -/
def State.semDown (s : State) (p n : Nat) : State := s.setReg 0 (pkSem p n) (s.sem p n - 1)

/-- `xsig` (R174). -/
def execXsig (n : BitVec 6) (s : State) : Host.Outcome State Fault Refusal :=
  issueScalarS s [] fun s g => s.asRel g (s.semUp (s.partOf g) n.toNat, .adv g)
/-- `xwait` (R174): it takes its unit once it has waited as `fence.acq`. -/
def execXwait (n : BitVec 6) (s : State) : Host.Outcome State Fault Refusal :=
  issueScalarS s [] fun s g =>
    kernelOnly g [] s <|
      if s.sem (s.partOf g) n.toNat = 0 then (s, .wait 5 g)
      else
        match g.asAcq (.adv g) with
        | .adv g' => (s.semDown (s.partOf g) n.toNat, .adv g')
        | a => (s, a)

/-! ### Byte-count barrier objects -/

/-- The deferred faults of a read that its own instruction delivers (R156, R163). -/
def ownFault (g : Group) (w : Nat) (c : Code) (info : Word) (va : Nat) : Act :=
  .deliver { op := g.nextOp
             trap := { code := c, delivery := .deferred, pc := g.ctx.pc, info := info, address := va, word := word w } }

/-- What `waitm` does with the object it has read. -/
def waitmEnd (g : Group) (bs : List Byte) (gen : Word) : Act :=
  if landed (word (leNat (bs.take 4))) || word (leNat ((bs.drop 8).take 4)) != gen then .adv { g with pageWait := none }
  else .wait 6 g

/-- The operation that a `waitm` is, for records and watchpoints. -/
def waitmOp (g : Group) (w : Nat) (x : Acc) : Op :=
  { id := g.nextOp, level := g.mode.level, work := .mem (.load 16 false) .none [x], paths := [x.path], pc := g.ctx.pc, word := word w }

/-- `waitm` has read its object, or the read was refused (R163, R345). A watchpoint that its range meets acts once, where the wait
ends (R385, log 112). -/
def State.waitmRead (s : State) (g : Group) (x : Acc) (gen : Word) : State × Act :=
  let r := s.performAt g (.load 16 false) x
  match r.fault with
  | none =>
    match waitmEnd { g with waitPeer := none } r.got gen with
    | .adv g' =>
      let o := waitmOp g s.curWord x
      match s.watchSeen g o (.load 16 false) [x] with
      | some w => (s, .adv (g'.watchNote o w))
      | none => (s, .adv g')
    | a => (s, a)
  | some c =>
    if x.peer then
      (s.record (1 - g.die) (s.partOf g) 0x25
        { group := some g.uid, core := g.core, index := g.index, pc := g.ctx.pc, va := x.va } c.num,
       ownFault g s.curWord .remoteFault (word (1 - g.die)) x.va)
    else (s, ownFault g s.curWord c 0 x.va)

/-- A `waitm` on an object of the other stack: it asks, and the answer comes by the next time, unless no link is up or it is lost;
then REMOTE_TIMEOUT comes when there is no time left (R163, R345). -/
def State.waitmPeer (s : State) (g : Group) (x : Acc) (gen : Word) : State × Act :=
  if g.waitPeer != some x.va then (s, .wait 6 { g with waitPeer := some x.va, waitSince := s.clk, waitLost := false })
  else if s.linkUp && !g.waitLost then s.linkQuiet.waitmRead g x gen
  else if s.expired g.die (some g.waitSince) then
    (s.record g.die (s.partOf g) 0x26
      { group := some g.uid, core := g.core, index := g.index, pc := g.ctx.pc, va := x.va } 0,
     ownFault g s.curWord .remoteTimeout (word (1 - g.die)) x.va)
  else (s, .wait 6 g)

/-- `waitm` (R163): a 16-byte load of its object, MISALIGNED unless 16-byte aligned, taken after the earlier accesses of the group
on its path (R68). One that the mesh fails to carry takes UNCORRECTABLE (R410). -/
def execWaitm (a b : Reg) (s : State) : Host.Outcome State Fault Refusal :=
  issueScalarS s [a.toNat, b.toNat] fun s g =>
    match s.check g .read 16 (scalarAddr g a.toNat 0) 16 with
    | .trap c v => (s, .trap c 0 v)
    | .miss v _ => (s.walkFor g (s.asker g 0 0 g.ctx.pc 0 v), .wait 12 g)
    | .absent v =>
      if (s.gridOf g).aborts then ((s.joinPage g (v / 4096)).abortBlock (s.blockOf g) (v / 4096), .stop)
      else (s.joinPage g (v / 4096), .wait 1 { g with pageWait := some (v / 4096) })
    | .ok x _ =>
      let o := waitmOp g s.curWord x
      if !g.turnOf o || g.blocked o x then (s, .wait 6 g)
      else if g.waitMesh && x.onMesh then (s.useAcc g x, ownFault g s.curWord .uncorrectable 0 x.va)
      else if x.peer then (s.useAcc g x).waitmPeer g x (g.u b.toNat)
      else (s.useAcc g x).waitmRead g x (g.u b.toNat)

end Sys2Proof.Machine
end

