-- ==== Sys2Proof/Machine/Preempt.lean ====
section
/-! DEFINITION. Pre-emption and restore: the save area (R318, R322), stopping and draining (R319), held operations (R320,
R400), the end of a save, the end of a restore (R326), the time limits, and the delivery of waiting traps (R309). -/
namespace Sys2Proof.Machine

/-! ### The save area -/

/-- G of R322. -/
def groupArea (v : Variant) : Nat := 153088 + 128 * v.vregs + 4 * v.uregs + 1024 * v.acc

/-- Bytes of a block's save area (R322). -/
def saveBytes (k : Grid) (b : Block) (v : Variant) : Nat :=
  0x100 + groupArea v * k.groups + b.scratch + b.colBytes * b.span

/-- An area of a partition's save pool (R318): the lowest free run of 64-byte units. -/
def State.poolArea (s : State) (part pool size n : Nat) : Option Nat :=
  fitBytes ((s.pool.filter fun a => a.part == part).map fun a => (a.base, a.size)) 64 pool (pool + size) n

/-! ### Stopping -/

/-- A block that is running and has a group to stop. -/
def State.canPreempt (s : State) (b : Block) : Bool :=
  b.st == .resident && (s.groupsOf b.uid).any fun g => !g.exited

/-- A block begins to stop for a pre-emption: its save area is allocated, and the header's context is written; without
room in the pool it runs on (R318, R323). A pending switch request is withdrawn (R36). -/
def State.preempt (s : State) (u reason : Nat) : Option State :=
  match s.block? u with
  | none => none
  | some b =>
    if !s.canPreempt b then none
    else
      let k := (s.grid? b.grid).getD {}
      let v := (k.variants[b.variant]?).getD {}
      match s.poolArea k.part k.vector.pool k.vector.poolSize (saveBytes k b v) with
      | none => none
      | some base =>
        let s1 := s.withdraw u
        let s2 : State := { s1 with pool := s1.pool ++ [{ part := k.part, base := base, size := saveBytes k b v, block := u }] }
        let s3 := (s2.dispatcherStore k.die k.part k.uid k.queue (base + 36)
          (leBytes 4 (Config.contextId k.die k.queue).toNat)).2
        let s4 := s3.modBlock u fun x => { x with st := .stopping, save := base, reason := reason }
        some { s4 with groups := s4.groups.map fun g =>
          if g.block == u && !g.exited then { g with preempt := some (word reason, base) } else g }

/-- A block is to be pre-empted, on behalf of a unit or not. Where the save pool has no room for it, or while it stands still
for a move or is restored, the pre-emption waits, and the block keeps running; a switch request is withdrawn at once (R318, R330,
R371, R372). -/
def State.wantPreempt (s : State) (u reason : Nat) (unit : Option (Nat × Nat)) : State :=
  match s.block? u with
  | none => s
  | some b =>
    if !(b.st == .resident || b.st == .frozen || b.st == .restoring) || (s.groupsOf u).all (·.exited) then s
    else
      match s.preempt u reason with
      | some s' => s'.modBlock u fun x => { x with forUnit := unit, wanted := none }
      | none => (s.withdraw u).modBlock u fun x => { x with wanted := some (reason, unit) }

/-- PREEMPTION: the dispatcher pre-empts a block, or does what it wanted before and could not (R318, R319). Reason 0 is a
pre-emption, 1 a migration, 2 a park. -/
def execPreemption (b reason : Nat) (s : State) : Host.Outcome State Fault Refusal :=
  if 2 < reason then .next s else .next (s.wantPreempt b reason (((s.block? b).bind (·.wanted)).bind (·.2)))

/-! ### Draining -/

/-- The operation needs no more waiting for a save: it is held, or abandoned there (R319, R320). -/
def Op.savedAsIs (o : Op) : Bool :=
  match o.work with
  | .mem _ _ accs => (o.parked != 0 || accs.any (·.held)) && accs.all fun a => a.performed || a.held
  | .ddraw .. => true
  | .dpos .. => true
  | .mtst _ _ a => a.held
  | _ => false

/-- Every operation of the group has completed, but those held or abandoned; nothing of a partner targets it (R249, R319). -/
def State.drained (s : State) (g : Group) : Bool :=
  (g.ops.all fun o => o.level == 0 && (s.releaseHeld g o).savedAsIs) && !s.partnerBusy g && !(s.forwards.any fun f => f.group == g.uid) &&
    !(s.copies.any fun c => c.owner == g.uid && c.st == .started)

/-- Started copies of a group are to be cut at the end of their chunk (R321). -/
def State.cutCopies (s : State) (u : Nat) : State :=
  { s with copies := s.copies.map fun c => if c.owner == u && c.st == .started then { c with cut := true } else c }

/-! ### Delivery -/

/-- PREEMPT is delivered (R319): held operations and unfinished copies become records, the group's stops end (R387), and the handler
begins. -/
def State.deliverPreempt (s : State) (u : Nat) : State :=
  let s := match s.group? u with
    | some g => (s.endStops g).rejoin u 0
    | none => s
  match s.group? u with
  | none => s
  | some g =>
    match g.preempt with
    | none => s
    | some (info, base) =>
      let mine := (g.ops.filter fun o => o.level == 0).map (s.releaseHeld g)
      let waiting := (s.copies.filter fun c => c.owner == u).flatMap fun c => c.bytes :: c.ext.toList
      let g1 := { g with
        heldRec := mine.filterMap heldWords, remainders := g.remainders ++ waiting, preempt := none
        frozen := mine.filter fun o => !o.work.isDraw
        ops := g.ops.filter fun o => o.level != 0 }
      let s1 : State := { s with copies := s.copies.filter fun c => c.owner != u }
      let s2 := s1.modBlock g.block fun b =>
        if b.st == .stopping then { b with st := .saving, since := s.clk } else b
      s2.setGroup (g1.enterHandler (s.gridOf g).vector (preemptTrap g1 info base) .save)

/-- A group whose PREEMPT is the next trap: once its paths stand at boundaries and it has drained, copies are cut and the
trap is delivered, after a deferred fault of a matrix operation (R250). -/
def State.tryPreempt (s : State) (u : Nat) : State :=
  match s.group? u with
  | none => s
  | some g =>
    if g.mode != .kernel || g.preempt.isNone || !g.ready.isEmpty || !g.atBoundary then s
    else
      let s1 := s.cutCopies u
      if !s1.drained g then s1
      else
        match g.deferred.find? fun d => d.matrix with
        | some d => s1.raise g 3 { d.trap with resume := g.k.pc }
        | none => s1.deliverPreempt u

/-- TRAP_ENTRY: a waiting trap of the group is entered once its paths stand at boundaries (R309, R312). -/
def execTrapEntry (u : Nat) (s : State) : Host.Outcome State Fault Refusal :=
  match s.group? u with
  | none => .next s
  | some g => .next ((s.tryEnter g).tryPreempt u)

/-! ### The end of a save -/

/-- Every group of the block has been saved or has exited: the stops that came during the save end (R387), and the block's resources
are freed (R319), for the unit of whose admission it is a victim (R370). -/
def State.finishSave (s : State) (u : Nat) : State :=
  let gs := s.groupsOf u
  if !(gs.all fun g => g.exited || g.saved) then s
  else
    let s := (gs.filter fun g => g.saved).foldl State.endStops s
    let freed := ((s.block? u).map s.owed).getD []
    let s1 := ({ s with reserves := s.reserves ++ freed } : State).modBlock u fun b => { b with
      st := .saved, waitFrom := s.clk, shares := [], cols := [], extents := [], moves := min (b.moves + 1) (2 ^ 32 - 1), forUnit := none
      keeps := gs.map Group.keep ++ b.keeps.filter fun x => !(gs.any fun g => g.index == x.index) }
    { s1 with groups := s1.groups.filter fun g => g.block != u }

/-- Clocks of 2 ms (R319, R326). -/
def saveLimit : Nat := 2000 * clkPerUs

/-- SAVE_TIMEOUT: a save that lasts more than 2 ms ends the context with reason 0xFE (R319). -/
def execSaveTimeout (b : Nat) (s : State) : Host.Outcome State Fault Refusal :=
  match s.block? b with
  | some x =>
    if x.st == .saving && x.since + saveLimit ≤ s.clk then .next (s.terminateGrid ((s.grid? x.grid).getD {}) 3 0xFE)
    else .next s
  | none => .next s

/-- RESTORE_TIMEOUT: the same of a restore, with reason 0xFC (R326). -/
def execRestoreTimeout (b : Nat) (s : State) : Host.Outcome State Fault Refusal :=
  match s.block? b with
  | some x =>
    if x.st == .restoring && x.since + saveLimit ≤ s.clk then .next (s.terminateGrid ((s.grid? x.grid).getD {}) 3 0xFC)
    else .next s
  | none => .next s

/-! ### Restore -/

/-- A divergence-stack entry from its four words (R221). -/
def entryOf (w0 w1 w2 w3 : Nat) : Entry :=
  { waitPc := w0 % 65536, rcv := w0 / 65536 % 65536, outer := if bitAt w1 17 then some (w1 % 65536) else none
    phase := bitAt w1 16, waitMask := word w2, merge := word w3 }

/-- The four words of an entry. -/
def Entry.words (e : Entry) : List Word :=
  [word (e.waitPc + 65536 * e.rcv),
   word ((e.outer.getD 0) + 65536 * e.phase.toNat + 131072 * e.outer.isSome.toNat), e.waitMask, e.merge]

/-- Keys of the raw words of a restore: control words, then stack words. -/
def rawStack : Nat := 1024

/-- The stacks that a restore handler wrote: counts from word 37, slot 0 upward and slot 1 downward, top first. -/
def Group.rawEntries (g : Group) (slot : Bool) : List Entry :=
  let w := (Cells.get 0 g.raw 37).toNat
  let n := min 64 (if slot then bits w 15 8 else bits w 7 0)
  ((List.range n).map fun k =>
    let e := if slot then 63 - k else k
    let at_ := fun i => (Cells.get 0 g.raw (rawStack + 4 * e + i)).toNat
    entryOf (at_ 0) (at_ 1) (at_ 2) (at_ 3)).reverse

/-- The lane-block queue that a restore handler wrote (words 3 to 19). -/
def Group.rawQueue (g : Group) : List (Nat × Word) :=
  let at_ := fun i => Cells.get 0 g.raw i
  (List.range (min 8 (bits (at_ 3).toNat 3 0))).map fun e => ((at_ (4 + 2 * e)).toNat % 65536, at_ (5 + 2 * e))

/-- The starting mask of a restored lane block: the lanes that have ended, those of the paths, and those that the stacks
hold (R220 to R224). -/
def Group.rawStart (g : Group) : Word :=
  let c := g.k
  (g.rawEntries false ++ g.rawEntries true).foldl (fun m e => m ||| e.waitMask ||| e.merge)
    (c.done ||| c.p0.mask ||| c.p0.w ||| c.p1.mask ||| c.p1.w)

/-- A lane word of the group's kernel code, read through the page tables. -/
def State.kernelWord (s : State) (g : Group) (i : Nat) : Nat :=
  match s.readBytes g.die (s.partOf g) ((s.variantOf g).laneVa + 12 * i) 12 with
  | .ok bs => leNat bs
  | _ => 0

/-- The header of the clause in which a path stands: the word 0xFF whose count ends where the path's does. -/
def State.clauseOf (s : State) (g : Group) (p : Path) : Option Header :=
  (List.range 8).findSome? fun d =>
    let w := s.kernelWord g (p.pc - (d + 1))
    if d + 1 ≤ p.pc && laneOpcode w == 255 && (headerFields w).count.toNat + 1 == d + p.left then some (headerFields w)
    else none

/-- A restored path: one whose lanes an operation keeps as parked issues that instruction again and counts nothing, though its page
was answered before the save and it was saved as running (R218, R320); the sets of its clause and the reconvergence index of its serial run
come from the code (R225, R320, log 23). -/
def State.restorePath (s : State) (g : Group) (p : Path) (ops : List Op) : Path :=
  let h := if p.left = 0 then none else s.clauseOf g p
  let parked := p.st == .parked
  { p with
    st := if parked then .running else p.st
    again := match ops.find? fun o => (o.parked &&& p.mask) != 0 with
      | some o => some o.id
      | none => if parked then some (g.nextOp + ops.length) else none
    atTrap := p.left != 0
    xAt := if p.left = 0 && laneOpcode (s.kernelWord g p.pc) == 0xA1 then some p.pc else none
    setA := h.bind fun x => if x.setAv then some x.setA.toNat else none
    setB := h.bind fun x => if x.setBv then some x.setB.toNat else none
    serial := p.serial.map fun v =>
      let w := s.kernelWord g v.branch
      { v with rcv := if laneOpcode w = 0xA0 then bits w 31 16 else bits w 15 0 } }

/-- Where the bytes of an access lie, by the tables of the moment. -/
def State.locsOf (s : State) (g : Group) (k : AccKind) (va n : Nat) : List (Loc × Nat) :=
  match s.check g k 1 va n with
  | .ok a _ => a.locs
  | _ => (splitRuns (n / 64 + 2) va n).filterMap fun r =>
    match s.reach g.die (s.partOf g) r.1 true with
    | .inl l => some (l, r.2)
    | .inr _ => none

/-- The held store of a record, with the operation that the dispatcher kept (R320). An `mtst` finds its bytes again when it is
performed (R252). -/
def State.restoreLaneOp (s : State) (g : Group) (w : Regs) (o : Op) : Op :=
  match o.work with
  | .mem k d accs =>
    let at_ := fun n => (Cells.get 0 w n).toNat
    { o with work := .mem k d (accs.map fun a =>
        if a.held && bitAt (at_ 3) a.lane then
          let va := at_ (4 + 6 * a.lane) + 2 ^ 32 * at_ (5 + 6 * a.lane)
          { a with
            va := va, locs := s.locsOf g .write va (a.locs.map (·.2)).sum
            data := ((List.range 4).flatMap fun i => leBytes 4 (at_ (6 + 6 * a.lane + i))).take a.data.length }
        else a) }
  | .mtst f n a => { o with work := .mtst f n { a with va := (Cells.get 0 w 4).toNat + 2 ^ 32 * (Cells.get 0 w 5).toNat, locs := [] } }
  | _ => o

/-- The draw command of a record (R400). -/
def restoreDrawOp (w : Regs) : Op :=
  let at_ := fun n => (Cells.get 0 w n).toNat
  let key := (List.range 3).map fun i => Cells.get 0 w (3 + i)
  let bytes := fun n => (List.range n).flatMap fun i => leBytes 4 (at_ (8 + i))
  let f := bits (at_ 0) 3 0
  let dst := bits (at_ 0) 17 11
  { pc := word (at_ 1), word := word (at_ 0), flag := if f < 12 then some f else none
    work := if bits (at_ 0) 31 25 = 0x61 then .ddraw dst (at_ 2) (bytes 8) key else .dpos dst (bytes 16) key }

/-- The operations of a restored group: parked and held ones that were kept, with what the records say, then draws, issued anew
(R270). -/
def State.restoredOps (s : State) (g : Group) : List Op :=
  let recs := g.heldRec.map (·.words)
  let lanes := recs.filter fun w => Cells.get 0 w 255 != 1
  let kept := g.frozen.filter fun o => (heldWords o).isSome
  let held := (kept.zip lanes).map fun x => s.restoreLaneOp g x.2 x.1
  let draws := (recs.filter fun w => Cells.get 0 w 255 == 1).map restoreDrawOp
  let all := (g.frozen.filter fun o => (heldWords o).isNone) ++ held ++ draws
  ((List.range all.length).zip all).map fun x =>
    { x.2 with id := g.nextOp + x.1, level := 0, seq := if x.2.work.isDraw then s.fresh + x.1 else x.2.seq }

/-- A group goes on after its restore (R326). -/
def State.resumeGroup (s : State) (g : Group) : Group :=
  let ops := s.restoredOps g
  { g with
    mode := .kernel, entry := .trap, restored := false, raw := [], given := [], heldRec := [], remainders := [], frozen := []
    ops := g.orphanOps ++ ops, deferred := g.keptFaults, nextOp := g.nextOp + ops.length + 1
    k := { g.k with
      queue := g.rawQueue, busy := bitAt (Cells.get 0 g.raw 3).toNat 4, start := g.rawStart
      s0 := g.rawEntries false, s1 := g.rawEntries true
      p0 := s.restorePath g g.k.p0 ops, p1 := s.restorePath g g.k.p1 ops } }

/-- Every group of the block has executed its restore `eret`: the block resumes, the save area is freed where no barrier lives
there (R325, log 139), and a token that waits at one of its
groups arrives (R38, R326). -/
def State.finishRestore (s : State) (u : Nat) : State :=
  let gs := s.groupsOf u
  match s.block? u with
  | none => s
  | some b =>
    if b.st != .restoring || !(gs.all (·.restored)) then s
    else
      let s1 := s.modBlock u fun x => { x with st := .resident, parked := false }
      let s2 : State := if b.barSlots < b.nBar then s1 else { s1 with pool := s1.pool.filter fun a => a.block != u }
      let s3 : State := { s2 with
        fresh := s2.fresh + (gs.map fun g => (s.restoredOps g).length).sum, groups := s2.groups.map fun g => if g.block == u then s.resumeGroup g else g }
      match (s3.groupsOf u).find? fun g => s3.strictG g && s3.holdsToken g with
      | some g => s3.receive g
      | none => s3

end Sys2Proof.Machine
end

