-- ==== Sys2Proof/Machine/System.lean ====
section
/-! DEFINITION. The system instructions (R313 to R317): `trap`, `brk`, the three forms of `eret`, the control-state words of
`prd` and `pwr` (R316, R324), `tlbinv` and `tlbsync`. -/
namespace Sys2Proof.Machine

/-- A system instruction that needs handler mode: PRIVILEGED in kernel mode, before its registers are checked (R137,
R304). -/
def issueSystem (s : State) (regs : List Nat) (f : State → Group → State × Act) : Host.Outcome State Fault Refusal :=
  issueScalarS s [] fun s g =>
    if !g.inHandler then (s, .fault .privileged)
    else
      match g.uOut regs with
      | some r => (s, .trap .registerRange (word r) 0)
      | none => f s g

/-- `trap imm` raises SOFTWARE (R314). -/
def execTrap (i : BitVec 16) (s : State) : Host.Outcome State Fault Refusal :=
  issueScalar s [] fun _ _ => .trap .software (i.setWidth 32) 0

/-- `brk imm` raises BREAKPOINT (R314). -/
def execBrk (i : BitVec 16) (s : State) : Host.Outcome State Fault Refusal :=
  issueScalar s [] fun _ _ => .trap .breakpoint (i.setWidth 32) 0

/-! ### Return -/

/-- The handler's lane blocks are abandoned: what they have issued is written. -/
def Group.endHandlerLanes (g : Group) : Group :=
  let g := (g.settleAll false).settleAll true
  { g with h := { g.h with queue := [], busy := false, p0 := {}, p1 := {} } }

/-- Return from depth 1 to depth 0, at the PC in g22 (R307). Operations of depth 1 go on in the one set of flags that the
handler has (R306). -/
def Group.leaveNested (g : Group) : Group :=
  let g := g.endHandlerLanes
  { g with
    mode := .handler, pageWait := none, parkH := none
    h := { g.h with pc := Cells.get 0 g.sureg 22 }
    ops := g.ops.map fun o => if o.level = 2 then { o with level := 1 } else o
    deferred := g.deferred.map fun d => if d.level = 2 then { d with level := 1 } else d }

/-- Return from depth 0 to the interrupted context (R315). -/
def Group.leaveHandler (g : Group) (resume : Word) : Group :=
  let g := g.endHandlerLanes
  { g with
    mode := .kernel, entry := .trap, k := { g.k with pc := resume }
    ops := g.orphanOps, deferred := g.keptFaults, whyS := none, whyL := none
    pageWait := none, parkH := none }

/-- What a resume PC is refused for: MISALIGNED or ACCESS_VIOLATION (R315). -/
def State.resumeFault (s : State) (g : Group) (pc : Word) : Option Code :=
  if pc.toNat % 4 ≠ 0 then some .misaligned
  else if (s.variantOf g).scalarSize < pc.toNat + 4 then some .accessViolation
  else none

/-- PREEMPT is delivered again at once (R315): `eret` in a save entry. -/
def State.againPreempt (s : State) (g : Group) : State :=
  let b := s.blockOf g
  s.setGroup (g.endHandlerLanes.enterHandler (s.gridOf g).vector (preemptTrap g (word b.reason) b.save) .save)

/-- `eret`, the restore completion: it waits as `fence.rel`, with the deferred faults of the handler's own operations, then for the
other groups of the block (R71, R326, log 124). -/
def State.restoreEret (s : State) (g : Group) : State × Act :=
  match s.resumeFault g g.k.pc with
  | some c => (s, .fault c)
  | none =>
    s.asRel g (faults := fun d => d.level != 0) <|
      let s1 := s.issued { g with restored := true } 3 g.ctx.pc.toNat
      (s1.finishRestore g.block, .stop)

/-- `eret` with fn 0 (R307, R315). A PREEMPT that is pending is delivered in place of the return: nothing of the context
issues before it (R312). -/
def execEret (s : State) : Host.Outcome State Fault Refusal :=
  issueSystem s [] fun s g =>
    if g.mode = .nested then (s.issued g.leaveNested 3 g.ctx.pc.toNat, .stop)
    else
      match g.entry with
      | .save => (s.againPreempt g, .stop)
      | .restore => s.restoreEret g
      | .trap =>
        let resume := Cells.get 0 g.sureg 30
        match s.resumeFault g resume with
        | some c => (s, .fault c)
        | none =>
          let s1 := (s.issued g 3 g.ctx.pc.toNat).modGroup g.uid fun x => x.leaveHandler resume
          (if g.preempt.isSome then s1.tryPreempt g.uid else s1, .stop)

/-- `eret.save` (R315, R319): it waits as `fence.rel`, with the deferred faults of the handler's own operations; those of the
interrupted context stay pending (R312, log 124). -/
def execEretSave (s : State) : Host.Outcome State Fault Refusal :=
  issueSystem s [] fun s g =>
    if g.mode = .nested || g.entry != .save then (s, .fault .accessViolation)
    else
      s.asRel g (faults := fun d => d.level != 0) <|
        let s1 := s.issued { g with saved := true } 3 g.ctx.pc.toNat
        (s1.finishSave g.block, .stop)

/-- `eret.term` (R315): the queue context ends with the low byte of gA. -/
def execEretTerm (a : Reg) (s : State) : Host.Outcome State Fault Refusal :=
  issueSystem s [a.toNat] fun s g =>
    ((s.issued g 3 g.ctx.pc.toNat).terminateGrid (s.gridOf g) 2 ((g.u a.toNat).toNat % 256), .stop)

/-! ### Control-state words -/

/-- The number of a path state (R324). -/
def PathState.num : PathState → Nat
  | .free => 0
  | .running => 1
  | .arrived => 2
  | .parked => 3

/-- The path state of a number. -/
def pathStateOf (n : Nat) : PathState :=
  match n % 4 with
  | 0 => .free
  | 1 => .running
  | 2 => .arrived
  | _ => .parked

/-- Word `i` of the eight of a path slot (R324). -/
def Path.control (p : Path) (i : Nat) : Word :=
  match i with
  | 0 => word (p.pc % 65536 + p.left * 65536)
  | 1 => p.mask
  | 2 => word ((p.rc.getD 0) % 65536 + p.rc.isSome.toNat * 65536)
  | 3 => p.w
  | 4 => word p.st.num
  | 5 =>
    match p.serial with
    | none => 0
    | some v => word (1 + v.lane * 256 + v.branch * 65536)
  | _ => 0

/-- The path with word `i` of its eight written. -/
def Path.setControl (p : Path) (i : Nat) (v : Word) : Path :=
  let n := v.toNat
  match i with
  | 0 => { p with pc := bits n 15 0, left := bits n 19 16 }
  | 1 => { p with mask := v }
  | 2 => { p with rc := if bitAt n 16 then some (bits n 15 0) else none }
  | 3 => { p with w := v }
  | 4 => { p with st := pathStateOf n }
  | 5 => { p with serial := if bitAt n 0 then some { branch := bits n 31 16, lane := bits n 12 8 } else none }
  | _ => p

/-- A segment by its number. -/
def Group.seg (g : Group) (n : Nat) : Option Segment :=
  match n with
  | 0 => g.segA
  | 1 => g.segB
  | 2 => g.segM
  | _ => none

/-- The group with a segment replaced. -/
def Group.setSeg (g : Group) (n : Nat) (x : Option Segment) : Group :=
  match n with
  | 0 => { g with segA := x }
  | 1 => { g with segB := x }
  | 2 => { g with segM := x }
  | _ => g

/-- Words that a restore handler writes before they take effect: the queue, the counts of stack entries and records, the
parked bit (log 25). -/
def rawWord (n : Nat) : Bool := (3 ≤ n && n < 20) || n = 37 || n = 68

/-- The words of the control block that say what the dispatcher has given the group: token position, segment lengths, variant and
group index. A restore handler writes them, and reads what it wrote; its end takes what the dispatcher gives (R316, R326, log 25). -/
def givenWord (n : Nat) : Bool := n = 39 || n = 60 || n = 62 || n = 64 || n = 69 || n = 70

/-- Word `n` of the control block of the interrupted context (R324). -/
def State.control (s : State) (g : Group) (n : Nat) : Word :=
  let k := g.k
  if g.entry == .restore && (rawWord n || (givenWord n && g.given.contains n)) then Cells.get 0 g.raw n
  else if n = 0 then k.pc
  else if n = 1 then g.live
  else if n = 2 then k.done
  else if n = 3 then word (k.queue.length + 16 * k.busy.toNat)
  else if n < 20 then
    let e := k.queue.getD ((n - 4) / 2) (0, 0)
    if n % 2 = 0 then word e.1 else e.2
  else if n < 28 then k.p0.control (n - 20)
  else if n < 36 then k.p1.control (n - 28)
  else if n = 36 then word k.granted
  else if n = 37 then word (k.s0.length + 256 * k.s1.length + 65536 * (k.s0.length + k.s1.length))
  else if n = 38 then k.q.setWidth 32
  else if n = 39 then word (s.holdsToken g).toNat
  else if n < 40 then 0
  else if n < 52 then word (k.flag (n - 40))
  else if n < 57 then word (k.counter (n - 52))
  else if n = 57 then g.k0
  else if n = 58 then g.k1
  else if n = 59 then g.k2
  else if n < 66 then
    match g.seg ((n - 60) / 2) with
    | none => 0
    | some x => word (if n % 2 = 0 then x.len else x.head)
  else if n = 66 then word (s.heldNow g).length
  else if n = 67 then word g.remainders.length
  else if n = 68 then word g.parkWhole.isSome.toNat
  else if n = 69 then word (s.blockOf g).variant
  else if n = 70 then word g.index
  else if 96 ≤ n then (k.predBits (n - 96)).setWidth 32
  else 0

/-- The list with exactly `n` elements. -/
def resize {α : Type} (d : α) (n : Nat) (l : List α) : List α := l.take n ++ List.replicate (n - l.length) d

/-- The group with word `n` of the control block written (R316). -/
def Group.setControl (g : Group) (n : Nat) (v : Word) : Group :=
  let k := g.k
  if rawWord n || givenWord n then { g with raw := Cells.set 0 g.raw n v, given := if givenWord n then n :: g.given else g.given }
  else if n = 0 then { g with k := { k with pc := v } }
  else if n = 1 then { g with live := v }
  else if n = 2 then { g with k := { k with done := v } }
  else if n < 20 then g
  else if n < 28 then { g with k := { k with p0 := k.p0.setControl (n - 20) v } }
  else if n < 36 then { g with k := { k with p1 := k.p1.setControl (n - 28) v } }
  else if n = 36 then { g with k := { k with granted := min v.toNat 64 } }
  else if n = 38 then { g with k := { k with q := v.setWidth 7 } }
  else if n < 40 then g
  else if n < 52 then { g with k := { k with flags := setNth k.flags (n - 40) (v.toNat % 64) } }
  else if n < 57 then { g with k := { k with paths := setNth k.paths (n - 52) (v.toNat % 256) } }
  else if n = 57 then { g with k0 := v }
  else if n = 58 then { g with k1 := v }
  else if n = 59 then { g with k2 := v }
  else if n < 66 then
    if n % 2 = 0 then g
    else g.setSeg ((n - 60) / 2) ((g.seg ((n - 60) / 2)).map fun x => { x with head := v.toNat % x.len })
  else if n = 66 then { g with heldRec := resize {} (min v.toNat 4) g.heldRec }
  else if n = 67 then { g with remainders := resize (List.replicate 32 0) (min v.toNat 256) g.remainders }
  else if 96 ≤ n then { g with k := { k with preds := Cells.set 0 k.preds (n - 96) (v.setWidth 7) } }
  else g

/-- The divergence stack in class 1 order: slot 0 upward, slot 1 downward (R316). -/
def Ctx.stackWord (c : Ctx) (n : Nat) : Word :=
  let e := n / 4
  let of_ := fun (l : List Entry) (k : Nat) => ((l.reverse[k]?).map fun x => x.words.getD (n % 4) 0)
  match of_ c.s0 e with
  | some w => w
  | none => (of_ c.s1 (63 - e)).getD 0

/-- A word of a list of bytes. -/
def byteWord (bs : List Byte) (n : Nat) : Word := word (leNat ((bs.drop (4 * n)).take 4))
/-- A list of bytes with a word replaced. -/
def setByteWord (bs : List Byte) (n : Nat) (v : Word) : List Byte :=
  bs.take (4 * n) ++ leBytes 4 v.toNat ++ bs.drop (4 * n + 4)

/-- The index lies in the extent of the class (R316). -/
def State.inExtent (s : State) (g : Group) (cls n : Nat) : Bool :=
  match cls with
  | 0 => n < 128
  | 1 => n < 256
  | 2 => n < 256 * g.awin
  | 3 =>
    match g.seg (n / 2 ^ 14) with
    | some x => n % 2 ^ 14 < 8 * x.len
    | none => false
  | 4 => n < 256 * (s.heldNow g).length
  | 5 => n < 8 * g.remainders.length
  | 6 => n < 32
  | _ => false

/-- The word that `prd` reads (R316). -/
def State.prdWord (s : State) (g : Group) (cls n : Nat) : Word :=
  match cls with
  | 0 => s.control g n
  | 1 => if g.entry == .restore then Cells.get 0 g.raw (rawStack + n) else g.k.stackWord n
  | 2 => Cells.get 0 g.tile n
  | 3 =>
    match g.seg (n / 2 ^ 14) with
    | some x => word (leNat (Mem.read x.bytes (4 * (n % 2 ^ 14)) 4))
    | none => 0
  | 4 => Cells.get 0 ((s.heldNow g).getD (n / 256) {}).words (n % 256)
  | 5 => byteWord (g.remainders.getD (n / 8) []) (n % 8)
  | _ =>
    let x := (s.blockOf g).bar (n / 2)
    if n % 2 = 0 then x.gen else word (x.arr % 65536 + x.exp * 65536)

/-- `prd` (R316): it waits as `lsync` on the handler's lane stream. -/
def execPrd (d i : BitVec 9) (k : BitVec 7) (s : State) : Host.Outcome State Fault Refusal :=
  issueSystem s [d.toNat, i.toNat] fun s g =>
    let n := (g.u i.toNat).toNat
    if !g.ctx.laneIdle then (s, .wait 9 g)
    else if !s.inExtent g k.toNat n then (s, .fault .reservedField)
    else (s, .adv (g.setU d.toNat (s.prdWord g k.toNat n)))

/-- The barrier with one of its words written (class 6). Its timer goes on, one that a `barw` has started with no arrival too (R393,
R397). -/
def Barrier.setWord (x : Barrier) (odd : Bool) (v : Word) (clk : Nat) : Barrier :=
  if odd then
    { x with arr := bits v.toNat 15 0, exp := bits v.toNat 31 16
             first := if bits v.toNat 15 0 = 0 then x.first else some (x.first.getD clk) }
  else { x with gen := v }

/-- The effect of `pwr` (R316). -/
def State.pwrWord (s : State) (g : Group) (cls n : Nat) (v : Word) : State × Group :=
  match cls with
  | 0 => (s, g.setControl n v)
  | 1 => (s, { g with raw := Cells.set 0 g.raw (rawStack + n) v })
  | 2 => (s, { g with tile := Cells.set 0 g.tile n v })
  | 3 =>
    (s, g.setSeg (n / 2 ^ 14) ((g.seg (n / 2 ^ 14)).map fun x =>
      { x with bytes := Mem.write x.bytes (4 * (n % 2 ^ 14)) (leBytes 4 v.toNat) }))
  | 4 =>
    let h : Held := g.heldRec.getD (n / 256) {}
    (s, { g with heldRec := setNth g.heldRec (n / 256) { h with words := Cells.set 0 h.words (n % 256) v } })
  | 5 => (s, { g with remainders := setNth g.remainders (n / 8) (setByteWord (g.remainders.getD (n / 8) []) (n % 8) v) })
  | _ =>
    (s.modBlock g.block fun b =>
      { b with bars := setNth b.bars (n / 2) ((b.bar (n / 2)).setWord (n % 2 == 1) v s.clk) }, g)

/-- Words that any handler entry may write (R316). -/
def pwrAlways (cls n : Nat) : Bool := cls == 0 && (n == 38 || (96 ≤ n && n < 128))

/-- `pwr` (R316). -/
def execPwr (i v : BitVec 9) (k : BitVec 7) (s : State) : Host.Outcome State Fault Refusal :=
  issueSystem s [i.toNat, v.toNat] fun s g =>
    let n := (g.u i.toNat).toNat
    if !g.ctx.laneIdle then (s, .wait 9 g)
    else if !s.inExtent g k.toNat n || !(pwrAlways k.toNat n || g.entry == .restore) then (s, .fault .reservedField)
    else
      let (s', g') := s.pwrWord g k.toNat n (g.u v.toNat)
      (s', .adv g')

/-! ### Invalidation -/

/-- The range of a `tlbinv`: none selects every entry of the partition (R317). -/
def invRange (g : Group) (a b : Nat) : Option (Nat × Nat) :=
  let n := (g.u b).toNat
  if n = 0 then none else some ((g.u64 a).toNat % 2 ^ 48 / 4096 * 4096, 4096 * n)

/-- An access in flight used a translation of the range: those of the paged memories (R317). -/
def Acc.inRange (a : Acc) (r : Option (Nat × Nat)) : Bool :=
  !a.performed && decide (a.va < winBase) &&
    (match r with
     | none => true
     | some r => overlaps r (a.va, (a.locs.map (·.2)).sum))

/-- The accesses that hold translations: those whose places are known. An engine's or a copy request's are found when they are
performed. -/
def Work.placed : Work → List Acc
  | .mem _ _ accs => accs
  | .mtld _ _ a => [a]
  | .mtst _ _ a => [a]
  | _ => []

/-- The accesses of a partition, by group and operation, that use translations of the range. -/
def State.usersOf (s : State) (part : Nat) (r : Option (Nat × Nat)) : List (Nat × Nat) :=
  (s.groups.filter fun g => s.partOf g == part).flatMap fun g =>
    (g.ops.filter fun o => o.work.placed.any fun a => !a.locs.isEmpty && a.inRange r).map fun o => (g.uid, o.id)

/-- The code fills of a partition that use translations of the range (R339). -/
def State.fillsOf (s : State) (part : Nat) (r : Option (Nat × Nat)) : List (Nat × Bool × Nat × Nat) :=
  [0, 1].flatMap fun die =>
    (((s.die die).fills.filter fun f => f.part == part &&
      (match r with
       | none => true
       | some r => overlaps r (f.va, (f.locs.map (·.2)).sum))).map fun f => (die, f.lane, f.part, f.va))

/-- The translations outside a range. -/
def runsOutside (r : Option (Nat × Nat)) (l : List Run) : List Run :=
  match r with
  | none => []
  | some r => l.filter fun x => !overlaps r (x.va, x.len)

/-- The extent runs of the partition that overlap the range are gone, and the translations that its instructions and requests
have obtained (R336, R339). -/
def State.dropRuns (s : State) (part : Nat) (r : Option (Nat × Nat)) : State :=
  let mine := fun (b : Nat) => ((s.grid? ((s.block? b).getD {}).grid).getD {}).part == part
  { s with
    blocks := s.blocks.map fun b => if mine b.uid then { b with extents := runsOutside r b.extents } else b
    groups := s.groups.map fun g =>
      if mine g.block then
        { g with leaves := runsOutside r g.leaves, ops := g.ops.map fun o => { o with leaves := runsOutside r o.leaves } }
      else g
    copies := s.copies.map fun c => if mine (c.owner / 192) then { c with leaves := runsOutside r c.leaves } else c
    bands := s.bands.map fun b => if b.part == part then { b with leaves := runsOutside r b.leaves } else b }

/-- `tlbinv` (R317, R339): the entries leave every TLB and both walkers, and the runs every extent table. -/
def execTlbinv (a b : Reg) (s : State) : Host.Outcome State Fault Refusal :=
  issueSystem s [a.toNat, a.toNat + 1, b.toNat] fun s g =>
    let r := invRange g a.toNat b.toNat
    let part := s.partOf g
    let hit := fun (n va size : Nat) => n == part &&
      (match r with
       | none => true
       | some r => overlaps r (va, size))
    let users := s.usersOf part r
    let s1 : State := { s.dropRuns part r with
      tlbs := s.tlbs.filter fun t => !hit t.part t.va t.size
      upper := s.upper.filter fun u => !hit u.part u.va (levelBytes u.lvl) }
    (s1, .adv { (s1.group? g.uid).getD g with inval := g.inval ++ users, invalFills := g.invalFills ++ s.fillsOf part r })

/-- Some access or code fill that used an invalidated translation has not been performed. -/
def State.invBusy (s : State) (g : Group) : Bool :=
  (g.inval.any fun x =>
    ((s.group? x.1).bind fun y => y.op? x.2).any fun o => o.work.placed.any fun a => !a.performed) ||
    g.invalFills.any fun x => (s.die x.1).fills.any fun f => (x.1, f.lane, f.part, f.va) == x

/-- `tlbsync` (R317). -/
def execTlbsync (s : State) : Host.Outcome State Fault Refusal :=
  issueSystem s [] fun s g => if s.invBusy g then (s, .wait 8 g) else (s, .adv { g with inval := [], invalFills := [] })

end Sys2Proof.Machine
end

