-- ==== Sys2Proof/Machine/Engine.lean ====
section
/-! DEFINITION. Memory accesses that an engine makes for a group's request or command (R79, R335): one run of bytes at a
time, translated, checked and performed at its home; and ranges of the group's own scratchpad share. -/
namespace Sys2Proof.Machine

/-- What an engine's access meets. -/
inductive Eng (α : Type) where
  /-- performed, with the addresses whose translations it used -/
  | ok (a : α) (used : List Nat := [])
  /-- a translation is missing -/
  | miss (va : Nat)
  /-- a page is absent: a record is unanswered -/
  | absent (va : Nat)
  /-- refused, with the code and the address -/
  | fault (c : Code) (va : Nat)
  /-- refused at the other stack with the code (R345) -/
  | remote (c : Code) (va : Nat)
  /-- the other stack does not answer (R345, R408) -/
  | away (va : Nat)
  deriving Repr, Inhabited

/-- The next step of an engine after one that was performed. -/
def Eng.bind {α β : Type} (x : Eng α) (f : α → Eng β) : Eng β :=
  match x with
  | .ok a used =>
    match f a with
    | .ok b more => .ok b (used ++ more)
    | r => r
  | .miss v => .miss v
  | .absent v => .absent v
  | .fault c v => .fault c v
  | .remote c v => .remote c v
  | .away v => .away v

/-- A result made from an engine's. -/
def Eng.map {α β : Type} (f : α → β) (x : Eng α) : Eng β := x.bind fun a => .ok (f a)

/-- The results of steps in order. -/
def Eng.all {α β : Type} (f : α → Eng β) : List α → Eng (List β)
  | [] => .ok []
  | a :: t => (f a).bind fun b => (Eng.all f t).bind fun bs => .ok (b :: bs)

/-- The memory runs that an engine's run of bytes reaches: no 64-byte boundary inside it. -/
def State.engRuns (s : State) (g : Group) (cls : TlbClass) (unit : Nat) (k : AccKind) (va n : Nat) :
    Eng (List (Loc × Nat)) :=
  if 2 ^ 48 ≤ va then .fault .accessViolation (va % 2 ^ 48)
  else
    let p := s.pieceBy g cls unit k va n
    if p.miss then .miss va
    else
      match p.fault with
      | some c => .fault c va
      | none =>
        if p.absent then .absent va
        else if p.peer && !s.linkUp then .away va
        else
          match s.resolve g (p.loc, n) with
          | none => .fault .sliceUnmapped va
          | some rs =>
            let part := s.partOf g
            if (p.slice || p.peer) && !(s.owned part (p.loc, n)) then
              (if p.peer then .remote .sliceUnmapped va else .fault .sliceUnmapped va)
            else if p.peer && !(rs.all (s.bankOwned part)) then .remote .accessViolation va
            else if k == .read && s.badRuns g rs then
              (if p.peer then .remote .uncorrectable va else .fault .uncorrectable va)
            else .ok rs [va]

/-- The runs of bytes that an engine moves at once: a 64-byte line, or an aligned word of the register alias window
(R53). -/
def engStep (va n : Nat) : Nat :=
  if winBase + 0xA000000000 ≤ va && va < winBase + 0xA000010000 then min n 4 else min n (64 - va % 64)

/-- The alias window takes whole aligned words only (R53). -/
def aliasBad (va n : Nat) : Bool :=
  winBase + 0xA000000000 ≤ va && va < winBase + 0xA000010000 && (va % 4 != 0 || n != 4)

/-- Bytes that an engine reads, run by run in ascending order. -/
def State.engRead (s : State) (g : Group) (cls : TlbClass) (unit : Nat) : Nat → Nat → Nat → Eng (List Byte)
  | _, _, 0 => .ok []
  | va, n, fuel + 1 =>
    if n = 0 then .ok []
    else
      let k := engStep va n
      if aliasBad va k then .fault .misaligned va
      else
        (s.engRuns g cls unit .read va k).bind fun rs =>
          (s.engRead g cls unit (va + k) (n - k) fuel).map fun t => s.readRuns g rs ++ t

/-- `n` bytes read by an engine. -/
def State.engBytes (s : State) (g : Group) (cls : TlbClass) (unit va n : Nat) : Eng (List Byte) :=
  s.engRead g cls unit va n (n + 1)

/-- Where an engine's bytes go: the runs of a store, all checked before any is written. -/
def State.engDest (s : State) (g : Group) (cls : TlbClass) (unit : Nat) : Nat → Nat → Nat → Eng (List (Loc × Nat))
  | _, _, 0 => .ok []
  | va, n, fuel + 1 =>
    if n = 0 then .ok []
    else
      let k := engStep va n
      if aliasBad va k then .fault .misaligned va
      else
        (s.engRuns g cls unit .write va k).bind fun rs =>
          (s.engDest g cls unit (va + k) (n - k) fuel).map fun t => rs ++ t

/-- The numbers of an engine: TLB class, unit and agent (R335, R341). -/
structure Unit_ where
  cls   : TlbClass := .request
  unit  : Nat := 0
  agent : Nat := 2
  deriving Repr, Inhabited

/-- Who asks for an engine of a group. -/
def State.engAsker (s : State) (g : Group) (u : Unit_) (op va : Nat) (copy oper : Option Nat) (pc mask : Word) : Asker :=
  { cls := u.cls, unit := u.unit, agent := u.agent, op := op, group := (s.group? g.uid).map (·.uid), core := g.core
    index := g.index, pc := pc, mask := mask, va := va, copy := copy, oper := oper, grid := (s.blockOf g).grid
    queue := (s.gridOf g).queue }

/-- A missing translation of an engine enters the walker queue, where it has room (R336). -/
def State.engMiss (s : State) (g : Group) (u : Unit_) (op va : Nat) (copy oper : Option Nat) (pc mask : Word) : State :=
  (s.enqueueWalk g.die (s.partOf g) va (s.engAsker g u op va copy oper pc mask)).getD s

/-- An engine meets an absent page: it joins the record, and waits, or its block is aborted (R25, R342). -/
def State.engAbsent (s : State) (g : Group) (u : Unit_) (op va : Nat) (copy oper : Option Nat) (pc mask : Word) : State :=
  let s1 := s.joinUnanswered g (va / 4096)
  s1.askerWaits (va / 4096) (s.engAsker g u op va copy oper pc mask)

/-- The module as an engine sees it whose answers from the other stack are lost (R408). -/
def State.linksDown (s : State) : State := { s with die0 := { s.die0 with retrain := true } }

/-- What the engine of an operation sees, and the group for which it reads, with the translations that it has (R336). -/
def State.seenBy (s : State) (o : Op) : State := if o.lost then s.linksDown else s
/-- The group for which the engine of an operation reads. -/
def Group.reader (g : Group) (o : Op) : Group := { g with leaves := o.leaves }

/-- Accesses of an engine at these addresses have been performed: those of the other stack have crossed the links (R408). -/
def State.engCrossed (s : State) (g : Group) (u : Unit_) (used : List Nat) : State :=
  if s.die0.replays = 0 && s.die1.replays = 0 then s
  else if used.any fun va => (s.pieceBy g u.cls u.unit .read va 1).peer then s.linkQuiet else s

/-! ### The own scratchpad share -/

/-- The offset in the own share of the byte at an address in any window, where it lies there. -/
def State.ownOffset (s : State) (g : Group) (va : Nat) : Option Nat :=
  if va < winBase then none
  else
    let p := s.piece g .read va 1
    if p.fault.isSome then none
    else
      match s.resolve g (p.loc, 1) with
      | some [(.mem .core key, _)] =>
        let sh := s.ownShare g
        let base := coreKey g.die g.core sh.1
        if base ≤ key && key < base + sh.2 then some (key - base) else none
      | _ => none

/-- A range of the own share that an instruction names by an address in any window: its offset there, or the fault
(R57, R169, R172). -/
def State.ownRange (s : State) (g : Group) (va align n : Nat) : Code ⊕ Nat :=
  if 2 ^ 48 ≤ va then .inl .accessViolation
  else if va % align ≠ 0 then .inl .misaligned
  else
    match s.ownOffset g va, s.ownOffset g (va + n - 1) with
    | some a, some b => if b = a + n - 1 then .inr a else .inl .accessViolation
    | _, _ => .inl .accessViolation

/-- Bytes of the own share. -/
def State.ownBytes (s : State) (g : Group) (off n : Nat) : List Byte := s.readMem .core (s.ownKey g off) n

/-- Uncorrectable data in a range of the own share. -/
def State.ownBad (s : State) (g : Group) (off n : Nat) : Bool := s.poisoned .core (s.ownKey g off) n

/-- Earlier accesses of the local path are in flight, of either stream and mode: a record is read in local-path order (R68, R78). -/
def Group.localBusy (g : Group) : Bool := g.ops.any fun o => o.paths.contains 0 && (o.work.mem?).isSome

end Sys2Proof.Machine
end

