-- ==== Sys2Proof/Machine/Copies.lean ====
section
/-! DEFINITION. Copy requests: `ckick` and `ccancel` (R169, R170), the records (R62 to R64), their chunks (R65, R321), the
operand streams they fill (R239), landing targets (R60, R61), their end, and what becomes of them when their group has
exited (R171). -/
namespace Sys2Proof.Machine

/-- A reserved field of the record or its extension is nonzero, or a field holds no value of its range (R62 to R64,
R169, R239). -/
def Copy.reserved (c : Copy) : Bool :=
  let r := leNat c.bytes
  let e := c.extNat
  bits r 249 248 != 0 || bits r 215 192 != 0 || bits r 191 160 != 0 || bits r 127 112 != 0 || c.land == 3 ||
  8 < c.kind || (c.land == 1 && c.target / 2 ^ 9 != 0) || (twoSlots c.kind && c.ext.isNone) ||
  (c.stream.isSome && c.dst / 2 ^ 21 != 0) ||
  (c.kind == 6 && (bits e 55 48 != 0 || e / 2 ^ 64 != 0 || 4 < bits e 59 56 || !(bits e 63 60 == 1 || bits e 63 60 == 2))) ||
  (c.kind == 8 && (c.rows == 0 || c.planes == 0 || e / 2 ^ 160 != 0))

/-- Slots that a core's request engine holds (R169). -/
def State.engineSlots (s : State) (die core : Nat) : Nat :=
  ((s.copies.filter fun c => c.die == die && c.core == core).map (·.slots)).sum

/-- The requests of submitted slots: a kind of two slots takes the next one where there is one. -/
def splitSlots : List (List Byte) → Option (Nat × List Byte) → Nat → List (Nat × List Byte × Option (List Byte))
  | [], none, _ => []
  | [], some (o, b), _ => [(o, b, none)]
  | e :: t, some (o, b), off => (o, b, some e) :: splitSlots t none (off + 32)
  | b :: t, none, off =>
    if twoSlots (recKind b) then splitSlots t (some (off, b)) (off + 32) else (off, b, none) :: splitSlots t none (off + 32)

/-- Requests are submitted, in order. -/
def State.submit (s : State) (g : Group) (rs : List (Nat × List Byte × Option (List Byte))) : State :=
  rs.foldl (fun t r =>
    let (id, t1) := t.takeFresh
    { t1 with copies := t1.copies ++ [{ id := id, die := g.die, core := g.core, owner := g.uid, slotVa := r.1
                                        bytes := r.2.1, ext := r.2.2 }] }) s

/-- `ckick` (R78, R169). -/
def execCkick (a b : Reg) (s : State) : Host.Outcome State Fault Refusal :=
  issueScalarS s [a.toNat, a.toNat + 1, b.toNat] fun s g =>
    let n := (g.u b.toNat).toNat
    let va := (g.u64 a.toNat).toNat
    if n = 0 then (s, .adv g)
    else if 64 < n then (s, .fault .reservedField)
    else
      match s.ownRange g va 32 (32 * n) with
      | .inl c => (s, .trap c 0 (va % 2 ^ 48))
      | .inr off =>
        if g.localBusy || Config.engineSlots < s.engineSlots g.die g.core + n then (s, .wait 12 g)
        else if s.ownBad g off (32 * n) then (s, ownFault g s.curWord .uncorrectable 0 va)
        else
          let rs := splitSlots ((List.range n).map fun i => s.ownBytes g (off + 32 * i) 32) none off
          (s.submit g rs, .adv g)

/-- A request is cancelled: one that has not started ends at once (R170), with bit 31 of its landing word set. That is so of a register
beyond the window too, the number taken modulo 512: a choice of the model (R62, log 144). -/
def State.cancel (s : State) (c : Copy) : State :=
  match c.st with
  | .queued => s.endCopy c 0xFE true
  | .started => s.modCopy c.id fun x => { x with cancelled := true }

/-- `ccancel` (R170). -/
def execCcancel (a : Reg) (s : State) : Host.Outcome State Fault Refusal :=
  issueScalarS s [a.toNat] fun s g =>
    let v := (g.u a.toNat).toNat
    if v / 2 ^ 16 ≠ 0 then (s, .fault .reservedField)
    else
      let s1 := (s.copies.filter fun c => c.owner == g.uid && c.tag == v).foldl State.cancel s
      (s1, .adv ((s1.group? g.uid).getD g))

/-! ### Starting -/

/-- How a request ends before any byte moves: its status, and whether its landing target is marked (R61 to R65). -/
def State.copyRefused (s : State) (c : Copy) : Option (Nat × Bool) :=
  let g := s.copyGroup c
  if c.land == 2 && (s.landObject c).isNone && !(s.blockOf g).gone then some (Code.sliceUnmapped.num, false)
  else if s.objectBad c then some (Code.reservedField.num, false)
  else if c.reserved then some (Code.reservedField.num, c.land == 2 || (c.land == 1 && c.target < g.uwin))
  else if c.land == 1 && g.uwin ≤ c.target && !g.exited then some (Code.registerRange.num, false)
  else if c.total = 0 then some (0xFF, false)
  else none

/-- Requests of a group do not start while it is being saved or moved: they follow it unstarted (R321, R329). -/
def State.copyMayStart (s : State) (c : Copy) : Bool :=
  let g := s.copyGroup c
  g.preempt.isNone && ((s.block? g.block).map (·.st)) != some .frozen

/-- COPY_REQUEST_START: the oldest request of a core that has not started starts (R65). -/
def execCopyRequestStart (die core : Nat) (s : State) : Host.Outcome State Fault Refusal :=
  match s.copies.find? fun c => c.die == die && c.core == core && c.st == .queued && s.copyMayStart c with
  | none => .next s
  | some c => .next (s.modCopy c.id fun x => { x with st := .started, ending := s.copyRefused c })

/-! ### Chunks -/

/-- Bytes of a chunk (R321). -/
def chunkBytes : Nat := 4096

/-- An address in the own-core, neighbourhood or slice windows (R63). -/
def isStore (va : Nat) : Bool :=
  winBase ≤ va && (va < winBase + 2 ^ 29 || (winBase + 0x4000000000 ≤ va && va < winBase + 0x4000000000 + 2 ^ 21) ||
    (winBase + 0x6000000000 ≤ va && va < winBase + 0x6000000000 + 24 * 2 ^ 21))

/-- The unit of the request engine of a core. -/
def copyUnit (c : Copy) : Unit_ := { cls := .request, unit := c.core, agent := 2 }

/-- The request engine's reads of a request. -/
def State.copyRead (s : State) (c : Copy) (va n : Nat) : Eng (List Byte) :=
  s.engBytes (s.copyGroup c) .request c.core va n

/-- Where byte `o` of the destination comes from and goes, and how many bytes follow it without a break. The index of a
gather is read (R64). A fill has no source, a stream fill no destination address. -/
def State.copyPlace (s : State) (c : Copy) (o : Nat) : Eng (Option Nat × Option Nat × Nat) :=
  if c.kind = 6 then
    let i := o / c.elem
    (s.copyRead c (bits c.extNat 47 0 + i * c.index) c.index).map fun bs =>
      (some (c.src + leNat bs * c.elem + o % c.elem), some (c.dst + o), c.elem - o % c.elem)
  else if c.kind = 8 then
    let e := c.extNat
    let p := o / (c.length * c.rows)
    let r := o / c.length % c.rows
    let x := o % c.length
    .ok (some (c.src + p * bits e 63 32 + r * bits e 31 0 + x), some (c.dst + p * bits e 127 96 + r * bits e 95 64 + x),
         c.length - x)
  else if c.kind = 7 then .ok (none, some (c.dst + o), c.total - o)
  else if c.stream.isSome then .ok (some (c.src + o), none, c.total - o)
  else .ok (some (c.src + o), some (c.dst + o), c.total - o)

/-- Bytes of a pattern from a phase on. -/
def patternBytes (p phase n : Nat) : List Byte := (List.range n).map fun i => BitVec.ofNat 8 (p / 2 ^ (8 * ((phase + i) % 4)))

/-- The bytes of a run from its source. -/
def State.copySource (s : State) (c : Copy) (o : Nat) (src : Option Nat) (n : Nat) : Eng (List Byte) :=
  match src with
  | none => .ok (patternBytes (c.src % 2 ^ 32) o n)
  | some a => if c.kind = 1 && !isStore a then .fault .accessViolation a else s.copyRead c a n

/-- Bytes placed in a segment from a byte offset on, modulo its size (R239). -/
def Segment.fill (x : Segment) (off : Nat) : List Byte → Segment
  | [] => x
  | b :: t => ({ x with bytes := Mem.setByte x.bytes (off % (32 * x.len)) b }).fill (off + 1) t

/-- The whole words among bytes placed in a segment of `size` bytes have valid checks again (R411, log 6). -/
def State.healSegment (s : State) (u k size off n : Nat) : State :=
  let a := off % size
  let m := min n (size - a)
  (s.heal .stream (groupKey u (2 ^ 17 * k + a)) m).heal .stream (groupKey u (2 ^ 17 * k)) (n - m)

/-- A run of a request is stored: at its address, or in the segment that the group holds. -/
def State.copyStore (s : State) (c : Copy) (o : Nat) (dst : Option Nat) (bs : List Byte) : Eng State :=
  let g := s.copyGroup c
  match c.stream, dst with
  | some k, _ =>
    match s.group? c.owner with
    | none => .fault .sliceUnmapped 0
    | some g =>
      match g.seg k with
      | none => .fault .sliceUnmapped 0
      | some x => .ok ((s.setGroup (g.setSeg k (some (x.fill (c.dst + o) bs)))).healSegment g.uid k (32 * x.len) (c.dst + o) bs.length)
  | none, some a =>
    if (c.kind = 0 || c.kind = 6) && !isStore a then .fault .accessViolation a
    else (s.engDest g .request c.core a bs.length 2).map fun rs => s.writeRuns g.uid rs bs
  | none, none => .ok s

/-- How many bytes move at once from and to two places. -/
def copySpan (src dst : Option Nat) (n : Nat) : Nat :=
  let n1 := match src with | some a => engStep a n | none => n
  match dst with | some a => engStep a n1 | none => n1

/-- The bytes of a request up to an offset are performed in ascending order. The last word says what stopped it:
an access that waits or is refused, and whether it was a write. -/
def State.copyRun (s : State) (c : Copy) (last : Nat) : Nat → State × Copy × Option (Eng Unit × Bool)
  | 0 => (s, c, none)
  | fuel + 1 =>
    if last ≤ c.done then (s, c, none)
    else
      let stop := fun (e : Eng Unit) (w : Bool) => (s, c, some (e, w))
      match s.copyPlace c c.done with
      | .ok (src, dst, k) _ =>
        let n := copySpan src dst (min k (last - c.done))
        match s.copySource c c.done src n with
        | .ok bs _ =>
          match s.copyStore c c.done dst bs with
          | .ok s' _ => s'.copyRun { c with done := c.done + n, owed := c.owed + n } last fuel
          | e => stop (e.map fun _ => ()) true
        | e => stop (e.map fun _ => ()) false
      | e => stop (e.map fun _ => ()) false

/-- The same, with the links as the request sees them whose answers are lost. Where it has moved on, it waits for nothing and
keeps no translation. -/
def State.copyMoves (s : State) (c : Copy) (last fuel : Nat) : State × Copy × Option (Eng Unit × Bool) :=
  let (s1, c1, e) := (if c.lost then s.linksDown else s).copyRun c last fuel
  let c2 := { c1 with wait := none }
  let s2 := if c2.done = c.done then s1 else s1.engCrossed (s.copyGroup c) (copyUnit c) [c.src, c.dst]
  ({ s2 with die0 := { s2.die0 with retrain := s.die0.retrain } },
   if c2.done = c.done then c2 else { c2 with since := none, leaves := [] }, e)

/-- The record of a copy's access that the other stack refuses or does not answer (R345). -/
def State.copyRemote (s : State) (c : Copy) (code die info va : Nat) (write : Bool) : State :=
  let g := s.copyGroup c
  s.record die (s.partOf g) code { agent := 2, op := write.toNat, core := c.core, index := g.index, va := va } info

/-- The request after a run, with what stopped it. -/
def State.copyAfter (s : State) (c : Copy) (e : Eng Unit) (write : Bool) : State :=
  let g := s.copyGroup c
  let put := fun (t : State) (x : Copy) => t.modCopy c.id fun _ => x
  match e with
  | .ok _ _ => put s c
  | .miss va => put (s.engMiss g (copyUnit c) write.toNat va (some c.id) none 0 0) c
  | .absent va => (put s c).engAbsent g (copyUnit c) write.toNat va (some c.id) none 0 0
  | .fault code _ => put s { c with ending := some (code.num, true) }
  | .remote code va => put (s.copyRemote c 0x25 (1 - c.die) code.num va write) { c with ending := some (Code.remoteFault.num, true) }
  | .away va =>
    if s.expired c.die c.since then
      put (s.copyRemote c 0x26 c.die 0 va write) { c with ending := some (Code.remoteTimeout.num, true) }
    else put s { c with since := some (c.since.getD s.clk) }

/-- Bytes performed are counted at once, but those of a request that is about to end: its status comes first (R65). -/
def State.credit (s : State) (c : Copy) : State × Copy :=
  if c.total ≤ c.done || c.ending.isSome then (s, c) else (s.landed c c.owed, { c with owed := 0 })

/-- Bytes of a plane of a region. -/
def Copy.plane (c : Copy) : Nat := max 1 (c.length * c.rows)

/-- The end of the chunk in which a request stands: that of its 4 KiB, and of a region that of the plane, where it may be cut
(R321). -/
def Copy.chunkEnd (c : Copy) : Nat :=
  let n := min c.total ((c.done / chunkBytes + 1) * chunkBytes)
  if c.kind = 8 then min n ((c.done / c.plane + 1) * c.plane) else n

/-- A started request that moves on. -/
def Copy.moves (c : Copy) : Bool :=
  c.st == .started && c.wait.isNone && c.ending.isNone && !c.cancelled && decide (c.done < c.total)

/-- A request stands where a save may cut it: between chunks, a region between planes (R321). -/
def Copy.cuttable (c : Copy) : Bool :=
  c.st == .started && c.wait.isNone && c.ending.isNone && !c.cancelled && decide (c.done < c.total) &&
    (if c.kind = 8 then c.done % c.plane == 0 else c.done % chunkBytes == 0)

/-- COPY_CHUNK_LANDING: the next chunk of a started request is performed, in the order of its offsets (R65, R321). A
request that is to be cut moves on only to the place of the cut. -/
def execCopyChunkLanding (id : Nat) (s : State) : Host.Outcome State Fault Refusal :=
  match s.copy? id with
  | none => .next s
  | some c =>
    if !c.moves || (c.cut && c.cuttable) then .next s
    else if s.objectBad c then .next (s.modCopy id fun x => { x with ending := some (Code.reservedField.num, false) })
    else
      let (s1, c1, e) := s.copyMoves c c.chunkEnd chunkBytes
      let (s2, c2) := s1.credit c1
      match e with
      | none => .next (s2.modCopy id fun _ => c2)
      | some (e, w) => .next (s2.copyAfter c2 e w)

/-! ### The end -/

/-- The record of a remainder (R321). -/
def State.remainder (s : State) (c : Copy) : Copy :=
  let o := c.done
  let g := s.copyGroup c
  let r := leNat c.bytes
  let segBytes := ((c.stream.bind g.seg).map fun x => 32 * x.len).getD (2 ^ 21)
  let planes := o / max 1 (c.length * c.rows)
  let src :=
    if c.kind = 6 || c.kind = 7 then c.src
    else if c.kind = 8 then c.src + planes * bits c.extNat 63 32 else c.src + o
  let dst :=
    if c.stream.isSome then (c.dst + o) % segBytes
    else if c.kind = 8 then c.dst + planes * bits c.extNat 127 96 else c.dst + o
  let len := if c.kind = 6 then c.length - o / c.elem else if c.kind = 8 then c.length else c.length - o
  let e := c.extNat
  let ext :=
    if c.kind = 6 then bits e 63 48 * 2 ^ 48 + (bits e 47 0 + o / c.elem * c.index) % 2 ^ 48
    else if c.kind = 8 then (c.planes - planes) * 2 ^ 144 + bits e 143 0 else e
  let v := src % 2 ^ 48 + c.tag * 2 ^ 48 + dst % 2 ^ 48 * 2 ^ 64 + len * 2 ^ 128 + bits r 255 224 * 2 ^ 224
  { c with bytes := leBytes 32 v, ext := c.ext.map fun _ => leBytes 32 ext, st := .queued, done := 0, cut := false, owed := 0 }

/-- COPY_REQUEST_END: a request that is complete, refused or cancelled ends (R65); one that is to be cut for a save
becomes its remainder (R321). -/
def execCopyRequestEnd (id : Nat) (s : State) : Host.Outcome State Fault Refusal :=
  match s.copy? id with
  | none => .next s
  | some c =>
    match c.ending with
    | some (status, mark) => .next (s.endCopy c status mark)
    | none =>
      if c.st != .started then .next s
      else if c.cancelled then .next (s.endCopy c 0xFE true)
      else if c.total ≤ c.done then .next (s.endCopy c 0xFF false)
      else if c.cut && c.cuttable then .next (s.modCopy id fun _ => s.remainder c)
      else .next s

end Sys2Proof.Machine
end

