-- ==== Sys2Proof/Machine/Units.lean ====
section
/-! DEFINITION. Placing the units of grids: a block, a neighbourhood, a strict cluster (R363, R365 to R367), what a block
starts with (R348, R362, R277), and a block that comes back (R325, R326, R343). -/
namespace Sys2Proof.Machine

/-! ### Bytes that change hands -/

/-- A run of bytes is given to a partition: what last belonged to another one is cleared; what was its own is cleared or
kept, an open choice (R348). -/
def State.giveBytes (s : State) (sp : Space) (a n part : Nat) : State :=
  if n = 0 then s
  else
    let (w, s1) := s.takeFree
    let others := s1.owners.any fun o => o.space == sp && o.part != part && overlaps (o.base, o.size) (a, n)
    (if others || !w.getLsbD 0 then s1.clearMem sp a n else s1).noteOwner sp a n part

/-- The column-bank range of a partition on a stack is zeroed. -/
def State.zeroBanks (s : State) (p : Part) : State :=
  let sh := p.share p.die
  (upFrom sh.col0 sh.cols).foldl (fun t c => t.clearMem .bank (bankKey p.die c (4096 * sh.cbLo)) (4096 * (sh.cbHi - sh.cbLo))) s

/-- A grid of a partition starts: the column-bank range of each stack on which the partition has been made valid since its last grid
started is zeroed, of the stack where the grid is placed and of the other, which its accesses reach too (R348). The sample-buffer
share is zero since its grant (R280). -/
def State.freshen (s : State) (num : Nat) : State :=
  let t := (s.parts.filter fun x => x.num == num && x.fresh).foldl State.zeroBanks s
  { t with parts := t.parts.map fun x => if x.num == num then { x with fresh := false } else x }

/-! ### Extent tables -/

/-- A leaf's attributes with the physical address of one of its pages (R337). -/
def pteAt (pte frame : Nat) : DWord :=
  BitVec.ofNat 64 (pte / 2 ^ 56 * 2 ^ 56 + frame / 4096 % 2 ^ 40 * 4096 + 2)

/-- Two runs are one: consecutive physical and virtual addresses, identical attributes. The column and the stack of a page of a
column bank are attributes (R332, R337). -/
def Run.joins (a b : Run) : Bool :=
  b.va == a.va + a.len && bits a.pte.toNat 63 56 == bits b.pte.toNat 63 56 &&
    pteFrame b.pte.toNat == pteFrame a.pte.toNat + a.len &&
    (pteKind a.pte.toNat != 1 || pteFrame a.pte.toNat / 2 ^ 22 == pteFrame b.pte.toNat / 2 ^ 22)

/-- A run enters a list whose last run is first. -/
def addRun (rs : List Run) (r : Run) : List Run :=
  match rs with
  | [] => [r]
  | x :: t => if x.joins r then { x with len := x.len + r.len } :: t else r :: x :: t

/-- The pages of one extent are walked: runs, last first, or the first page that fails with its code (R337, R338). Pages from
0xFF00_0000_0000 on are walked like any other: a choice of the model (R331, log 149). -/
def State.walkExtent (s : State) (p : Part) (last : Nat) : List Run → Nat → Nat → List Run ⊕ (Nat × Nat)
  | rs, _, 0 => .inl rs
  | rs, va, fuel + 1 =>
    if last < va then .inl rs
    else
      match walk s p va with
      | .bad c => .inr (c, va)
      | .unread => .inr (0x21, va)
      | .leaf pte base size =>
        let n := min (base + size) ((last / 4096 + 1) * 4096) - va
        s.walkExtent p last (addRun rs { va := va, len := n, pte := pteAt pte (pteFrame pte + (va - base)) }) (va + n) fuel

/-- The extents of a grid in order. -/
def State.walkExtents (s : State) (p : Part) : List Run → List Extent → List Run ⊕ (Nat × Nat)
  | rs, [] => .inl (rs.reverse.take 64)
  | rs, e :: t =>
    if e.len = 0 then s.walkExtents p rs t
    else
      match s.walkExtent p (e.va + e.len - 1) rs (e.va / 4096 * 4096) (e.len / 4096 + 2) with
      | .inl rs => s.walkExtents p rs t
      | .inr x => .inr x

/-! ### A block is put on its cores -/

/-- The registers with which a group starts (R277, R362). -/
def startRegs (k : Grid) (index b : Nat) : Regs × Regs :=
  match k.wave with
  | none => (Cells.set 0 (Cells.set 0 [] 2 (loWord k.args)) 3 (hiWord k.args), [])
  | some w =>
    let n := k.groups * b + index
    let vs := w.vregs.getD n []
    let v := ((List.range vs.length).zip vs).foldl (fun (r : Regs) x =>
      (List.range 32).foldl (fun r l => Cells.set 0 r (32 * x.1 + l) (lane x.2 l)) r) []
    (match w.uregs[n]? with
     | some u => Cells.set 0 [] u.1 u.2
     | none => [], v)

/-- A group of a block that starts afresh. Slot 0 holds the single live path of all lanes (R17), which issues nothing before the
first lane block starts; that its index is 0 until then is the model's choice (log 105). -/
def freshGroup (k : Grid) (v : Variant) (b : Block) (index : Nat) (x : Seat) : Group :=
  let (u, w) := startRegs k index b.index
  { uid := 192 * b.uid + index, block := b.uid, index := index, die := k.die, core := x.core, quarter := x.quarter
    rslot := x.rslot, vbase := x.vbase, vwin := v.vregs, uwin := v.uregs, awin := v.acc, ureg := u, vreg := w
    k := { pc := word v.entry, granted := Config.grantedEntries, p0 := { st := .running, mask := BitVec.allOnes 32 } } }

/-- The segments of the groups on a core: first position and number (R235). -/
def State.segsOn (s : State) (die core n : Nat) : List (Nat × Nat) :=
  (s.groups.filter fun g => g.die == die && g.core == core).filterMap fun g => (g.seg n).map fun x => (x.base, x.len)

/-- A segment is granted on the core of a group (R238, R262). -/
def State.grantSeg (s : State) (g : Group) (n len : Nat) : Option Group :=
  (fitBytes (s.segsOn g.die g.core n) 1 0 (Config.streamPositions n) len).map fun b =>
    g.setSeg n (some { base := b, len := len })

/-- The group that comes back for a restore, with what the dispatcher kept (R262, R325, R326, log 12). -/
def restoredGroup (g : Group) (x : Keep) : Group :=
  { g with
    ureg := [], vreg := [], barLast := x.barLast, barAt := x.barAt, barPc := x.barPc, barW := x.barW, barWaited := x.barWaited, lost := x.lost
    live := x.live, frozen := x.held, nextOp := x.nextOp, deferred := x.deferred, feeds := x.feeds
    stimeHi := x.stimeHi, clkHi := x.clkHi, k := { granted := Config.grantedEntries } }

/-- The segments of a group that comes back, or none where one does not fit. -/
def State.restoreSegs (s : State) (g : Group) (x : Keep) : Option Group :=
  [0, 1, 2].foldl (fun (o : Option Group) n =>
    match o with
    | none => none
    | some g => if x.segs.getD n 0 = 0 then some g else s.grantSeg g n (x.segs.getD n 0)) (some g)

/-- The groups of a block take their places, in order, with valid checks in all that they get. The last argument says whether they come back. -/
def State.seatGroups (s : State) (k : Grid) (v : Variant) (b : Block) (info : Option Nat) : List (Nat × Seat) → Option State
  | [] => some s
  | (i, x) :: t =>
    let g := freshGroup k v b i x
    let placed : Option Group :=
      match info with
      | none => some g
      | some n =>
        let kp := (b.keeps.find? fun y => y.index == i).getD {}
        (s.restoreSegs (restoredGroup g kp) kp).map fun g =>
          g.enterHandler k.vector (preemptTrap g (word n) b.save) .restore
    match placed with
    | none => none
    | some g =>
      let w := windowRange x.quarter x.vbase v.vregs
      let s1 := [Space.uniform, .tile, .stream].foldl (fun t sp => t.heal sp (groupKey g.uid 0) (2 ^ 20))
        (s.clearMem .core (coreKey k.die x.core w.1) w.2)
      ({ s1 with groups := s1.groups ++ [g] } : State).seatGroups k v b info t

/-- The bytes of the shares and column allocations of a place are given to its partition. -/
def State.giveAlloc (s : State) (k : Grid) (a : Alloc) : State :=
  let s1 := ((List.range a.shares.length).zip a.shares).foldl
    (fun t x => t.giveBytes .core (coreKey k.die (a.core + x.1) x.2.1) x.2.2 k.part) s
  ((List.range a.cols.length).zip a.cols).foldl
    (fun t x => t.giveBytes .bank (bankKey k.die (coreCol a.core + x.1) x.2) k.colBytes k.part) s1

/-- The commit token of a strict grid exists from the placement of its first block (R38). -/
def State.startToken (s : State) (k : Grid) : State :=
  if k.strict && (s.token? k.die k.part).isNone then
    { s with tokens := s.tokens ++ [{ die := k.die, part := k.part, grid := k.uid, at_ := 0 }] }
  else s

/-- Code lines of the partition's cores leave their caches when a grid starts from a packet with acquire set (R138,
R358). -/
def State.dropCode (s : State) (k : Grid) (p : Part) : State :=
  if k.acquire && k.next == 0 then
    { s with lines := s.lines.filter fun l => !(l.die == k.die && p.cores.contains l.core) }
  else s

/-- A block takes its place: `back` is the block that comes back, `info` what the frames of its groups hold for a restore
(R326), none for a start. -/
def State.install (s : State) (p : Part) (k : Grid) (index variant : Nat) (runs : List Run) (a : Alloc)
    (back : Option Block) (info : Option Nat) : Option State :=
  let s := ((s.dropCode k p).freshen p.num).giveAlloc k a |>.startToken k
  let (uid, s) := match back with
    | some b => (b.uid, s)
    | none => s.takeFresh
  let v := (k.variants[variant]?).getD {}
  let old := back.getD { uid := uid, grid := k.uid, index := index, die := k.die, startVariant := variant }
  let b : Block := { old with
    st := if info.isSome then .restoring else .resident, variant := variant, core := a.core, span := v.span
    shares := a.shares, cols := a.cols, colBytes := k.colBytes, nBar := 1 + k.barriers
    barSlots := s.freeBars k.die a.core v.span (1 + k.barriers), extents := runs
    slot := if k.nbhd = 0 then none else some (index % k.nbhd), since := s.clk, abortPage := none, forUnit := none
    req := none, wanted := none }
  let s1 : State := { s with
    blocks := if back.isSome then s.blocks.map fun x => if x.uid == uid then b else x else s.blocks ++ [b]
    grids := s.grids.map fun x =>
      if x.uid == k.uid then
        let n := if back.isSome then x.next else x.next + 1
        { x with next := n, lastCore := some a.core, inPool := x.inPool && decide (n < x.blocks) }
      else x
    parts := s.parts.map fun x =>
      if x.die == k.die && x.num == k.part then
        { x with vtime := x.vtime + 65536 / max 1 (s.regN k.die (dpWeight k.part) % 256) } else x }
  s1.seatGroups k v b info a.seats

/-! ### Trial placement -/

/-- Groups of a block that take a place: those of a block that comes back that have not exited. -/
def seatList (k : Grid) (back : Option Block) : List Nat :=
  (List.range k.groups).filter fun i =>
    match back with
    | none => true
    | some b => !(b.keeps.any fun x => x.index == i && x.exited)

/-- A block in one variant on the first of the cores on which it fits (R365). A restore takes the barrier slots that are free (R325). -/
def State.tryCores (s : State) (p : Part) (k : Grid) (index variant : Nat) (runs : List Run) (back : Option Block)
    (info : Option Nat) (fits : Nat → Nat → Bool) (cores : List Nat) : Option State :=
  match k.variants[variant]? with
  | none => none
  | some v =>
    cores.findSome? fun c =>
      if !p.spanFits c v.span || !fits c v.span then none
      else
        match s.tryPlace (fun _ => true) k v c (if info.isSome then 0 else 1 + k.barriers) (seatList k back) with
        | none => none
        | some a => s.install p k index variant runs a back info

/-- A block in its first variant that fits on some span, on the first such span (R365, R366). -/
def State.tryBlock (s : State) (p : Part) (k : Grid) (index : Nat) (runs : List Run) (back : Option Block)
    (fits : Nat → Nat → Bool) (cores : List Nat) : Option State :=
  (List.range k.variants.length).findSome? fun n => s.tryCores p k index n runs back none fits cores

/-- Blocks in order on the cores of a rectangle. -/
def State.tryRow (s : State) (p : Part) (k : Grid) (runs : List Run) (fits : Nat → Nat → Bool) (cores : List Nat) :
    List Nat → Option State
  | [] => some s
  | i :: t =>
    match s.tryBlock p k i runs none fits cores with
    | none => none
    | some s' => s'.tryRow p ((s'.grid? k.uid).getD k) runs fits cores t

/-- The shapes of rectangles of an area at a top-left core inside the partition's: rows and columns, fewer rows first. -/
def shapes (sh : Share) (area tl : Nat) : List (Nat × Nat) :=
  (upFrom 1 sh.rows).filterMap fun r =>
    if area % r = 0 && coreRow tl + r ≤ sh.row0 + sh.rows && coreCol tl + area / r ≤ sh.col0 + sh.cols then some (r, area / r)
    else none

/-- A neighbourhood on the rectangle of least area that holds it, the least top-left core first (R366). Between shapes of
one area and place the one with fewer rows is tried first (log 9). -/
def State.tryNbhd (s : State) (p : Part) (k : Grid) (first : Nat) (runs : List Run) (free : Nat → Bool) : Option State :=
  let sh := p.share p.die
  (upFrom 1 (sh.rows * sh.cols)).findSome? fun area =>
    p.cores.findSome? fun tl =>
      (shapes sh area tl).findSome? fun r =>
        let inside := fun c => coreRow tl ≤ coreRow c && coreRow c < coreRow tl + r.1 &&
          coreCol tl ≤ coreCol c && coreCol c < coreCol tl + r.2
        let fits := fun c span => inside (c + span - 1) && (upFrom c span).all free
        s.tryRow p k runs fits (p.cores.filter inside) (upFrom first k.nbhd)

/-- HilbertIndex of R367, from the quadrant size `s` down. -/
def hilbert (n : Nat) : Nat → Nat → Nat → Nat → Nat → Nat
  | 0, _, _, _, d => d
  | fuel + 1, s, x, y, d =>
    if s = 0 then d
    else
      let rx := (Nat.land x s != 0).toNat
      let ry := (Nat.land y s != 0).toNat
      let d := d + s * s * Nat.xor (3 * rx) ry
      let (x, y) := if ry = 0 then (if rx = 1 then (n - 1 - y, n - 1 - x) else (y, x)) else (x, y)
      hilbert n fuel (s / 2) x y d

/-- HilbertIndex(x, y, m). -/
def hilbertIndex (x y m : Nat) : Nat := hilbert (2 ^ m) (m + 1) (2 ^ m / 2) x y 0

/-- The least m with 2^m at least `n`. -/
def log2Up (n : Nat) : Nat := if n ≤ 1 then 0 else Nat.log2 (n - 1) + 1

/-- The cores of the rectangle in Hilbert order (R367). -/
def Part.curve (p : Part) : List Nat :=
  let sh := p.share p.die
  let m := log2Up (max sh.rows sh.cols)
  sortRank (fun c => [hilbertIndex (coreCol c - sh.col0) (coreRow c - sh.row0) m]) p.cores

/-- The list from an element on, then what comes before it. -/
def turnTo (l : List Nat) (c : Nat) : List Nat := l.dropWhile (· != c) ++ l.takeWhile (· != c)

/-- The search of R367 for a block of a cluster, from a core on: at each core the first variant that fits there. -/
def State.tryCurve (s : State) (p : Part) (k : Grid) (index : Nat) (runs : List Run) (free : Nat → Bool) (order : List Nat) :
    Option State :=
  order.findSome? fun c => s.tryBlock p k index runs none (fun c span => (upFrom c span).all free) [c]

/-- The cores in the order in which the next cluster's first block looks for its place. -/
def firstOrder (p : Part) (k : Grid) : List Nat :=
  match k.lastCore with
  | none => p.curve
  | some c =>
    match turnTo p.curve c with
    | [] => []
    | x :: t => t ++ [x]

/-- A cluster: the first block after the grid's last, later ones from the block before (R367). -/
def State.tryCluster (s : State) (p : Part) (k : Grid) (runs : List Run) (free : Nat → Bool) :
    List Nat → Bool → Option State
  | [], _ => some s
  | i :: t, first =>
    let order := if first then firstOrder p k else turnTo p.curve (k.lastCore.getD 0)
    match s.tryCurve p k i runs free order with
    | none => none
    | some s' => s'.tryCluster p ((s'.grid? k.uid).getD k) runs free t false

/-- Blocks of a unit of fresh blocks. -/
def Grid.unitSize (k : Grid) : Nat := if k.strict then max 1 (k.clusW * k.clusH) else if k.nbhd = 0 then 1 else k.nbhd

/-- A unit of fresh blocks that starts at an index, on the cores that `free` leaves. -/
def State.tryFresh (s : State) (p : Part) (k : Grid) (first : Nat) (runs : List Run) (free : Nat → Bool) : Option State :=
  if k.strict then s.tryCluster p k runs free (upFrom first k.unitSize) true
  else if k.nbhd = 0 then s.tryBlock p k first runs none (fun c span => (upFrom c span).all free) p.cores
  else s.tryNbhd p k first runs free

/-- The state as it would be with nothing placed of any grid but one. -/
def State.emptied (s : State) (k : Grid) : State := { s with blocks := [], groups := [], grids := [k], tokens := [], reserves := [] }

/-- A unit of the grid could be placed on the empty rectangle (R359): its clusters and neighbourhoods are alike, and a
block's needs do not depend on its index. -/
def State.placeable (s : State) (p : Part) (k : Grid) : Bool :=
  let k := { k with next := 0, lastCore := none }
  ((s.emptied k).tryFresh p k 0 [] fun _ => true).isSome

end Sys2Proof.Machine
end

