-- ==== Sys2Proof/Machine/Launch.lean ====
section
/-! DEFINITION. From a packet to a grid: the image (R142 to R145), the trap vector record (R308), the checks of R359, child
grids (R172, R173, R373, R374), and the packet core (R351 to R358). -/
namespace Sys2Proof.Machine

/-! ### Checks -/

/-- What the checks of a packet come to. -/
inductive Accept (α : Type) where
  | ok (a : α)
  | reject (reason : Nat)
  /-- a record condition at a page: the packet waits (R359) -/
  | page (code va : Nat)
  deriving Repr, Inhabited

/-- The checks that follow. -/
def Accept.bind {α β : Type} (x : Accept α) (f : α → Accept β) : Accept β :=
  match x with
  | .ok a => f a
  | .reject r => .reject r
  | .page c v => .page c v

/-- One check. -/
def demand {α : Type} (reason : Nat) (c : Bool) (k : Accept α) : Accept α := if c then k else .reject reason

/-- A list of checked things. -/
def Accept.all {α β : Type} (f : α → Accept β) : List α → Accept (List β)
  | [] => .ok []
  | a :: t => (f a).bind fun b => (Accept.all f t).bind fun bs => .ok (b :: bs)

/-- A read of the dispatcher: refused, it rejects with a reason. -/
def State.fetchFor (s : State) (die part reason va n : Nat) : Accept Nat :=
  match s.readBytes die part va n with
  | .ok bs => .ok (leNat bs)
  | .record c v => .page c v
  | .refused _ _ => .reject reason

/-! ### Images -/

/-- A read of image bytes. -/
def State.image (s : State) (die part va off n : Nat) : Accept Nat := s.fetchFor die part 3 (va + off) n

/-- Two ranges of a map share a byte. -/
def rangesMeet (a b : MapRange) : Bool := a.len != 0 && b.len != 0 && overlaps (a.off, a.len) (b.off, b.len)

/-- Some two elements stand in a relation. -/
def somePair {α : Type} (r : α → α → Bool) : List α → Bool
  | [] => false
  | a :: t => t.any (r a) || somePair r t

/-- One range of a live-state map (R144, R145). -/
def mapRange (scratch e : Nat) : Accept MapRange :=
  let x : MapRange := { id := bits e 15 0, off := bits e 63 32, len := bits e 95 64 }
  demand 3 (bits e 31 16 == 0 && bits e 127 96 == 0 && x.off % 16 == 0 && x.len % 16 == 0 &&
    decide (x.off + x.len ≤ scratch)) (.ok x)

/-- An entry of a switch table with its map (R144, R145). -/
def State.switchEntry (s : State) (die part va : Nat) (v : Variant) (e : Nat) : Accept Switch :=
  let n := bits e 7 0
  let off := bits e 63 32
  let m := bits e 95 64
  demand 3 (1 ≤ n && n ≤ 15 && bits e 31 8 == 0 && bits e 127 96 == 0 && off % 4 == 0 && off + 4 ≤ v.scalarSize && m % 64 == 0) <|
    (s.fetchFor die part 3 (v.scalarVa + off) 4).bind fun w =>
    demand 3 (match decodeScalar w with | .instr (.swpt i) => i.toNat == n | _ => false) <|
    (s.image die part va m 128).bind fun h =>
    let vm := bits h 255 0
    let gm := bits h 767 256
    let count := bits h 783 768
    demand 3 (count ≤ 64 && bits h 1023 784 == 0 && vm / 2 ^ v.vregs == 0 && gm / 2 ^ v.uregs == 0) <|
    (s.image die part va (m + 128) (16 * count)).bind fun b =>
    (Accept.all (fun i => mapRange v.scratch (b / 2 ^ (128 * i) % 2 ^ 128)) (List.range count)).bind fun rs =>
    demand 3 (!somePair (fun a b => a.id == b.id || rangesMeet a b) rs)
      (.ok { n := n, off := off, v := BitVec.ofNat 256 vm, g := BitVec.ofNat 512 gm, ranges := rs })

/-- A variant descriptor (R143, R145). The scratchpad is kept in bytes. -/
def State.variantEntry (s : State) (die part va threads d : Nat) : Accept Variant :=
  let vregs := bits d 15 0
  let uregs := bits d 31 16
  let scratch := bits d 47 32
  let acc := bits d 63 48
  let v : Variant :=
    { vregs := vregs, uregs := uregs, scratch := 1024 * scratch, acc := acc, span := bits d 67 64
      scalarVa := va + bits d 127 96, scalarSize := bits d 159 128, laneVa := va + bits d 191 160
      laneSize := bits d 223 192, entry := bits d 255 224 }
  demand 3 (bits d 511 288 == 0 && bits d 95 84 == 0 && bits d 79 68 == 0) <|
  demand 3 (16 ≤ vregs && vregs ≤ 256 && vregs % 16 == 0 && 128 ≤ uregs && uregs ≤ 512 && uregs % 64 == 0 &&
    scratch ≤ 1536 && acc ≤ 768 && v.span == (threads + 2047) / 2048) <|
  demand 3 (bits d 127 96 % 64 == 0 && bits d 191 160 % 64 == 0 && bits d 287 256 % 64 == 0 && v.scalarSize % 4 == 0 &&
    v.laneSize % 12 == 0 && v.laneSize ≤ 786432 && v.entry % 4 == 0 && v.entry < v.scalarSize) <|
  (s.image die part va (bits d 287 256) (16 * bits d 83 80)).bind fun t =>
  (Accept.all (fun i => s.switchEntry die part va v (t / 2 ^ (128 * i) % 2 ^ 128)) (List.range (bits d 83 80))).bind fun ss =>
  demand 3 (!somePair (fun (a b : Switch) => a.n == b.n) ss) (.ok { v with switches := ss })

/-- Core-store bytes of a block (R28, R145). -/
def Variant.coreBytes (v : Variant) (groups : Nat) : Nat := groups * (128 * v.vregs + 3072) + v.scratch

/-- The switch numbers and range lengths of two variants agree (R145). -/
def switchesAgree (a b : Variant) : Bool :=
  (a.switches.all fun x =>
    match b.switches.find? fun y => y.n == x.n with
    | none => false
    | some y => x.ranges.all fun r => y.ranges.all fun q => r.id != q.id || r.len == q.len) &&
  b.switches.all fun y => a.switches.any fun x => x.n == y.n

/-- Core-store bytes do not rise from a variant to the next. -/
def bytesFall (groups : Nat) : List Variant → Bool
  | a :: b :: t => decide (b.coreBytes groups ≤ a.coreBytes groups) && bytesFall groups (b :: t)
  | _ => true

/-- What an image gives a grid. -/
structure Image where
  threads  : Nat := 32
  barriers : Nat := 0
  idem     : Bool := false
  strict   : Bool := false
  variants : List Variant := []
  /-- slot and access of each declared extent -/
  extents  : List (Nat × Nat) := []
  deriving Repr, Inhabited

/-- The image at an address (R142 to R145). The offsets of structures that are absent (no data, extents, switches or lane code) must be multiples of 64 too: a choice of
the model (log 47). -/
def State.readImage (s : State) (die part va : Nat) : Accept Image :=
  demand 3 (va % 64 == 0) <|
  (s.image die part va 0 64).bind fun h =>
  let threads := bits h 79 64
  let n := bits h 51 48
  let ext := bits h 228 224
  demand 3 (bits h 31 0 == 0x43555A4B && bits h 47 32 == 1 && bits h 511 229 == 0 && bits h 95 80 == 0 &&
    bits h 55 54 == 0 && 1 ≤ n && n ≤ 4 && bits h 63 56 ≤ 15 && ext ≤ 16 && 32 ≤ threads && threads ≤ 6144 &&
    threads % 32 == 0 && bits h 127 96 % 64 == 0 && bits h 159 128 % 64 == 0 && bits h 223 192 % 64 == 0) <|
  (s.image die part va (bits h 223 192) (4 * ext)).bind fun e =>
  let es := (List.range ext).map fun i => (bits e (32 * i + 3) (32 * i), bits e (32 * i + 5) (32 * i + 4))
  demand 3 (es.all fun x => x.2 != 0) <|
  (s.image die part va (bits h 127 96) (64 * n)).bind fun t =>
  (Accept.all (fun i => s.variantEntry die part va threads (t / 2 ^ (512 * i) % 2 ^ 512)) (List.range n)).bind fun vs =>
  demand 3 (bytesFall (threads / 32) vs && !somePair (fun a b => !switchesAgree a b) vs)
    (.ok { threads := threads, barriers := bits h 63 56, idem := bitAt h 53, strict := bitAt h 52, variants := vs
           extents := es })

/-- A section of the trap handler that is not empty starts on an executable page of scene memory (R308). -/
def State.executable (s : State) (p : Part) (va size : Nat) (k : Accept TrapVector) : Accept TrapVector :=
  if size = 0 then k
  else
    match s.walkVa p.die p.num va with
    | .leaf pte _ _ => demand 4 (pteKind pte == 0 && pteX pte) k
    | .bad c => .page c va
    | .unread => .reject 4

/-- The trap vector record of a partition (R308): in scene memory. -/
def State.readVector (s : State) (p : Part) : Accept TrapVector :=
  demand 4 (p.vector % 64 == 0) <|
  demand 4 (match s.reach p.die p.num p.vector false with | .inl (.mem .scene _) => true | .inl _ => false | .inr _ => true) <|
  (s.fetchFor p.die p.num 4 p.vector 64).bind fun r =>
  let v : TrapVector :=
    { scalarBase := bits r 47 0, laneBase := bits r 111 64, scalarSize := bits r 159 128, laneSize := bits r 191 160
      entry := bits r 223 192, nested := bits r 255 224, handled := bits r 276 256, pool := bits r 335 288
      poolSize := bits r 383 336 }
  demand 4 (bits r 511 384 == 0 && bits r 287 277 == 0 && bits r 127 112 == 0 && bits r 63 48 == 0 &&
    !bitAt v.handled 17 && !bitAt v.handled 19 && v.poolSize % 65536 == 0 && v.pool % 65536 == 0 &&
    v.pool + v.poolSize ≤ winBase && v.scalarBase % 64 == 0 && v.laneBase % 64 == 0 && v.scalarSize % 4 == 0 &&
    v.laneSize % 12 == 0 && v.laneSize ≤ 786432)
    (s.executable p v.scalarBase v.scalarSize (s.executable p v.laneBase v.laneSize (.ok v)))

/-! ### Packets -/

/-- Bits of a DISPATCH packet that must be zero (R354). -/
def dispatchReserved (r : Nat) : Bool :=
  bits r 447 432 != 0 || bits r 383 368 != 0 || bits r 191 176 != 0 || bits r 127 92 != 0 || bitAt r 31 || bits r 15 14 != 0

/-- The cluster fields of a strict grid break R367. -/
def clusterBad (x y z w h : Nat) : Bool :=
  (w != 1 || h != 1) && !(z == 1 && x % w == 0 && y % h == 0 && (h == 1 || w == x) && w * h ≤ 24)

/-- One entry of an extent list (R356). -/
def extentEntry (r : Nat) (x : (Nat × Nat) × Nat) : Accept Extent :=
  let e := r / 2 ^ (128 * x.2) % 2 ^ 128
  demand 5 (bits e 63 48 == 0 && bits e 127 96 == 0)
    (.ok { slot := x.1.1, acc := x.1.2, va := bits e 47 0, len := bits e 95 64 })

/-- What a grid takes from its parent, or from its queue (R373, R374). -/
structure Origin where
  die    : Nat := 0
  part   : Nat := 0
  queue  : Nat := 0
  parent : Option Group := none
  deriving Repr, Inhabited

/-- Another strict grid of the partition is in progress on the stack (R38, R359). -/
def State.strictBusy (s : State) (die part : Nat) : Bool :=
  s.grids.any fun k => k.die == die && k.part == part && k.strict && k.st == .active

/-- The strict limit of R37, once the image's header can be read. -/
def State.strictTooMany (s : State) (o : Origin) (image blocks : Nat) : Accept Bool :=
  if image % 64 ≠ 0 then .ok false
  else
    match s.image o.die o.part image 0 64 with
    | .ok h => .ok (bitAt h 52 && 22369621 < blocks)
    | .reject _ => .ok false
    | .page c v => .page c v

/-- The grid of a DISPATCH packet, after the checks of R359 in their order. -/
def State.checkDispatch (s : State) (o : Origin) (b : List Byte) : Accept Grid :=
  let r := leNat b
  let x := bits r 47 32
  let y := bits r 63 48
  let z := bits r 79 64
  let nbhd := bits r 20 16
  let w := bits r 88 85 + 1
  let h := bits r 91 89 + 1
  let image := bits r 175 128
  let ext := bits r 84 80
  demand 1 (bits r 7 0 == 1 && !dispatchReserved r) <|
  demand 2 (x != 0 && y != 0 && z != 0 && x * y * z ≤ 2 ^ 32) <|
  (s.strictTooMany o image (x * y * z)).bind fun many =>
  demand 2 (!many) <|
  (s.readImage o.die o.part image).bind fun im =>
  match s.part? o.die o.part with
  | none => .reject 9
  | some p =>
    (s.readVector p).bind fun v =>
    demand 5 (ext == im.extents.length && bits r 367 320 % 16 == 0) <|
    (s.fetchFor o.die o.part 5 (bits r 367 320) (16 * ext)).bind fun l =>
    (Accept.all (extentEntry l) (im.extents.zip (List.range ext))).bind fun es =>
    demand 6 (nbhd ≤ 24 && (nbhd == 0 || (x * y * z % nbhd == 0 && !im.strict))) <|
    demand 7 (if im.strict then !clusterBad x y z w h && !(o.parent.isSome && s.strictBusy o.die o.part)
      else w == 1 && h == 1) <|
    demand 8 (bits r 30 21 ≤ 512) <|
    let pk := (o.parent.map s.gridOf).getD {}
    let k : Grid :=
      { part := o.part, die := o.die, queue := o.queue, parent := o.parent.map (·.uid)
        depth := if o.parent.isSome then pk.depth + 1 else 0
        cls := if o.parent.isSome then pk.cls else bits r 11 10
        deadline := if o.parent.isSome then pk.deadline else BitVec.ofNat 64 (bits r 255 192)
        args := BitVec.ofNat 64 (bits r 319 256), threads := im.threads, barriers := im.barriers, idem := im.idem
        strict := im.strict, variants := im.variants, vector := v, x := x, y := y, z := z, nbhd := nbhd
        hold := bitAt r 13, colBytes := 4096 * bits r 30 21, clusW := w, clusH := h, extents := es
        record := bits r 431 384, completion := bits r 495 448, tag := bits r 511 496, irq := bitAt r 12
        acquire := bitAt r 8, release := bitAt r 9, packet := b, waitFrom := s.clk }
    demand 9 (s.placeable p k) <|
    demand 10 (k.completion % 8 == 0 && k.record % 64 == 0) (.ok k)

/-- A grid enters the dispatcher (R357, R373). -/
def State.enter (s : State) (k : Grid) : State :=
  let (n, s1) := s.takeFresh
  { s1 with grids := s1.grids ++ [{ k with uid := n, arrival := n, inPool := k.parent.isSome }] }

/-! ### Child grids -/

/-- Records of the stack's pending pool, and those of a partition (R373). -/
def State.poolUsed (s : State) (die : Nat) (part : Option Nat) : Nat :=
  (s.grids.filter fun k => k.die == die && k.inPool && (part.isNone || part == some k.part)).length

/-- The pool, or the partition's part of it, is full (R373). -/
def State.poolFull (s : State) (die part : Nat) : Bool :=
  Config.poolRecords ≤ s.poolUsed die none ||
    min (s.regN die (dpPoolCap part) % 8192) Config.poolRecords ≤ s.poolUsed die (some part)

/-- The origin of a child grid. -/
def State.childOrigin (s : State) (g : Group) : Origin :=
  { die := g.die, part := s.partOf g, queue := (s.gridOf g).queue, parent := some g }

/-- A packet of a child grid is accepted or rejected, or waits on a page (R172, R374). The truth says whether it was
accepted. -/
def State.launchChild (s : State) (g : Group) (b : List Byte) (wave : Nat → Option Wave) :
    (Bool × State) ⊕ (Nat × Nat) :=
  match s.checkDispatch (s.childOrigin g) b with
  | .ok k => .inl (true, s.enter { k with wave := wave k.groups })
  | .reject r =>
    let k := s.gridOf g
    let s1 := s.report g.die (s.partOf g) k.uid k.queue k.cls false (packetCompletion b) (packetTag b) 1 r
    .inl (false, s1.modGroup g.uid fun x => { x with lost := x.lost + 1 })
  | .page c v => .inr (c, v)

/-- `launch` (R172): it waits as `fence.rel`; the packet lies in the own share; LAUNCH_DEPTH (R30). -/
def execLaunch (a : Reg) (s : State) : Host.Outcome State Fault Refusal :=
  issueScalarS s [] fun s g =>
    kernelOnly g [a.toNat, a.toNat + 1] s <|
      s.asRel g <|
        let va := (g.u64 a.toNat).toNat
        match s.ownRange g va 64 64 with
        | .inl c => (s, .trap c 0 (va % 2 ^ 48))
        | .inr off =>
          if 10 ≤ (s.gridOf g).depth then (s, .fault .launchDepth)
          else if s.poolFull g.die (s.partOf g) then (s, .wait 12 g)
          else if s.ownBad g off 64 then (s, ownFault g s.curWord .uncorrectable 0 va)
          else
            match s.launchChild g (s.ownBytes g off 64) fun _ => none with
            | .inl (_, s') => (s', .adv ((s'.group? g.uid).getD g))
            | .inr (c, v) =>
              let k := s.gridOf g
              (s.translationRecord g.die (s.partOf g) c (dispatcherAsker k.uid k.queue 0 v) 0 false,
               .wait 1 { g with pageWait := some (v / 4096) })

/-- Child grids of the group that no `join` has counted (R173). -/
def State.children (s : State) (g : Group) : List Grid := s.grids.filter fun k => k.parent == some g.uid && !k.joined

/-- `join` (R173): its children have retired, with their copy requests under the release bit (R71). -/
def execJoin (a : Reg) (s : State) : Host.Outcome State Fault Refusal :=
  issueScalarS s [] fun s g =>
    kernelOnly g [a.toNat] (reads := []) s <|
      let cs := s.children g
      if cs.any fun k => k.st != .complete then (s, .wait 5 { g with inJoin := true })
      else
        let n := g.lost + (cs.filter fun k => k.status != 0).length
        let s1 : State := { s with grids := s.grids.map fun k => if k.parent == some g.uid then { k with joined := true } else k }
        (s1, .adv ({ g with lost := 0, inJoin := false }.setU a.toNat (word n)))

/-! ### The packet core -/

/-- The packet in progress of a queue. -/
def State.packet? (s : State) (die q : Nat) : Option Packet := (s.die die).packets.find? fun p => p.queue == q

/-- The packets of a stack changed. -/
def State.mapPackets (s : State) (die : Nat) (f : List Packet → List Packet) : State :=
  let d := s.die die
  s.setDie die { d with packets := f d.packets }

/-- The partition of a queue. -/
def State.queuePart (s : State) (die q : Nat) : Nat := s.regN die (pkQ q 8) % 16

/-- A packet has been accepted or rejected: the read index advances, and a stop that waited takes effect (R353, R357). -/
def State.packetDone (s : State) (die : Nat) (p : Packet) : State :=
  let s0 := s.mapPackets die fun l => l.filter fun x => x.queue != p.queue
  let s1 := if p.stale then s0 else s0.advanceQueue die p.queue
  if p.stop then s1.setQueueState die p.queue 2 0 else s1

/-- A packet is reported with a status and reason, and is done. -/
def State.packetReport (s : State) (die : Nat) (p : Packet) (status reason : Nat) : State :=
  (s.report die (s.queuePart die p.queue) 0 p.queue (packetClass p.bytes) (packetIrq p.bytes) (packetCompletion p.bytes)
    (packetTag p.bytes) status reason).packetDone die p

/-- Every earlier grid of the queue has been reported complete (R86, R355). -/
def State.queueQuiet (s : State) (die q : Nat) : Bool :=
  !(s.grids.any fun k => k.die == die && k.queue == q && k.parent.isNone && k.st != .complete)

/-- The acquire bit of a packet. -/
def packetAcquire (b : List Byte) : Bool := bitAt (leNat (b.take 2)) 8

/-- Bits of a NOP, SIGNAL or WAIT packet that must be zero (R355). -/
def shortReserved (b : List Byte) : Bool :=
  let r := leNat b
  let sem := bits r 7 0 == 2 || bits r 7 0 == 3
  bits r 447 38 != 0 || (!sem && bits r 37 32 != 0) || bits r 31 13 != 0 || bits r 11 9 != 0

/-- A packet that is not in progress, or waits for a page or for the earlier grids of its queue, does nothing. -/
def State.packetTurn (s : State) (die q : Nat) (k : Packet → State) : State :=
  match s.packet? die q with
  | none => s
  | some p => if p.wait.isSome || (packetAcquire p.bytes && !s.queueQuiet die q) then s else k p

/-- A NOP, SIGNAL or WAIT packet is checked, and then acts (R355, R359). -/
def State.shortPacket (s : State) (die q ty : Nat) (act : Nat → Option State) : State :=
  s.packetTurn die q fun p =>
    if leNat (p.bytes.take 1) ≠ ty then s
    else if shortReserved p.bytes then s.packetReport die p 1 1
    else if packetCompletion p.bytes % 8 ≠ 0 then s.packetReport die p 1 10
    else
      match act (bits (leNat p.bytes) 37 32) with
      | none => s
      | some s' => s'.packetReport die p 0 0

/-- SIGNAL_PACKET (R355). -/
def execSignalPacket (die q : Nat) (s : State) : Host.Outcome State Fault Refusal :=
  .next (s.shortPacket die q 2 fun n => some (s.semUp (s.queuePart die q) n))

/-- WAIT_PACKET: it stays in progress while its semaphore is zero (R355, R357). -/
def execWaitPacket (die q : Nat) (s : State) : Host.Outcome State Fault Refusal :=
  let p := s.queuePart die q
  .next (s.shortPacket die q 3 fun n => if s.sem p n = 0 then none else some (s.semDown p n))

/-- NOP_PACKET; a packet of a reserved type is handled after these, and rejected (R355, R357, R359). -/
def execNopPacket (die q : Nat) (s : State) : Host.Outcome State Fault Refusal :=
  match s.packet? die q with
  | none => .next s
  | some p =>
    if 3 < leNat (p.bytes.take 1) then .next (s.packetReport die p 1 1) else .next (s.shortPacket die q 0 fun _ => some s)

/-- Grids that a queue has dispatched and that are not reported complete (R357). -/
def State.dispatched (s : State) (die q : Nat) : Nat :=
  (s.grids.filter fun k => k.die == die && k.queue == q && k.parent.isNone && k.st != .complete).length

/-- DISPATCH_PACKET (R357 to R359): at most 16 grids of a queue are in progress. -/
def execDispatchPacket (die q : Nat) (s : State) : Host.Outcome State Fault Refusal :=
  .next <| s.packetTurn die q fun p =>
    if leNat (p.bytes.take 1) ≠ 1 || 16 ≤ s.dispatched die q then s
    else
      match s.checkDispatch { die := die, part := s.queuePart die q, queue := q } p.bytes with
      | .ok k => (s.enter k).packetDone die p
      | .reject r => s.packetReport die p 1 r
      | .page c v =>
        let s1 := s.translationRecord die (s.queuePart die q) c (dispatcherAsker 0 q 0 v) 0 false
        s1.mapPackets die fun l => l.map fun x => if x.queue == q then { x with wait := some (v / 4096) } else x

/-- The bytes of the packet at the read index of a queue (R351). One that reads as uncorrectable is taken as a packet of a reserved
type: its bytes are not used (R411; log 104). -/
def State.packetBytes (s : State) (die q : Nat) : List Byte :=
  let n := bits (s.regN die (pkQ q 8)) 20 16
  let base := s.regN die (pkQ q 0) / 64 * 64 + s.regN die (pkQ q 4) % 65536 * 2 ^ 32
  let a := base + 64 * (s.regN die (pkQ q 0x10) % 2 ^ n)
  if s.poisoned .scene a 64 then 0xFF :: List.replicate 63 0 else s.readMem .scene a 64

/-- The queues whose lanes take a packet in this step (R357). -/
def State.newPackets (s : State) (die : Nat) : List Packet :=
  ((List.range 32).filter fun q =>
    s.regN die (pkQ q 0x14) % 4 == 1 && s.regN die (pkQ q 0xC) != s.regN die (pkQ q 0x10) && (s.packet? die q).isNone).map
    fun q => { queue := q, bytes := s.packetBytes die q }

/-- The handling of a packet, and its place in the order of a step: SIGNAL, WAIT, DISPATCH, NOP, reserved types. -/
def packetEvent (die : Nat) (p : Packet) : Nat × Instr :=
  match leNat (p.bytes.take 1) with
  | 2 => (0, .signalPacket die p.queue)
  | 3 => (1, .waitPacket die p.queue)
  | 1 => (2, .dispatchPacket die p.queue)
  | 0 => (3, .nopPacket die p.queue)
  | _ => (4, .nopPacket die p.queue)

/-- PACKET_CORE_STEP: packets are read, and those in progress are handled by type and queue (R357). A packet published
during a wake is taken once the stack is in D0 (R417). -/
def execPacketCoreStep (die : Nat) (s : State) : Host.Outcome State Fault Refusal :=
  if (s.die die).power.st != 0 then .next s
  else
  let s1 := s.mapPackets die fun l => l ++ s.newPackets die
  let order := sortRank (fun p => [(packetEvent die p).1, p.queue]) (s1.die die).packets
  .next { s1 with agenda := order.map (fun p => .event (packetEvent die p).2) ++ s1.agenda }

end Sys2Proof.Machine
end

