-- ==== Sys2Proof/Machine/Dispatcher.lean ====
section
/-! DEFINITION. The dispatcher: which unit is placed next (R363, R364, R376), placing restores by their headers (R323, R325),
admission (R370 to R372), parks (R375), retirement and block records (R368, R369), the completion of grids (R31, R360). -/
namespace Sys2Proof.Machine

/-! ### Units that wait -/

/-- A unit that waits for placement: fresh blocks from an index on, or a block that comes back. -/
inductive Waiting where
  | fresh (first : Nat)
  | back (b : Block)
  deriving Repr, Inhabited

/-- The first block index of a unit. -/
def Waiting.first : Waiting → Nat
  | .fresh n => n
  | .back b => b.index

/-- A block that was saved, or aborted and answered, may be placed. -/
def Block.mayReturn (b : Block) : Bool := (b.st == .saved || b.st == .aborted) && b.abortPage.isNone

/-- Some unit of a grid waits for placement: a block, fresh or coming back. -/
def State.gridWaits (s : State) (k : Grid) : Bool :=
  k.st == .active && k.extentWait.isNone && (decide (k.next < k.blocks) || s.blocks.any fun b => b.grid == k.uid && b.mayReturn)

/-- The joins on which a parked block waited and that cannot return yet: the children that its groups wait for, with their copy
requests under the release bit (R71, R173, R375). -/
def State.joinsOpen (s : State) (b : Block) : List Grid :=
  s.grids.filter fun k => k.st != .complete && !k.joined &&
    (match k.parent with
     | some g => g / 192 == b.uid && b.keeps.any fun x => x.inJoin && x.index == g % 192
     | none => false)

/-- A parked block is held back until every join on which it waited can return (R363, R375). -/
def State.heldBack (s : State) (b : Block) : Bool := b.parked && !(s.joinsOpen b).isEmpty

/-- An earlier strict grid of the partition on the stack has not retired (R38). -/
def State.strictBehind (s : State) (k : Grid) : Bool :=
  k.strict && s.grids.any fun x =>
    x.die == k.die && x.part == k.part && x.strict && x.st == .active && decide (x.arrival < k.arrival)

/-- The block index at which the token of the grid waits, where that block is not resident (R38, R376). -/
def State.awaited (s : State) (k : Grid) : Option Nat :=
  match s.token? k.die k.part with
  | some t =>
    if t.grid == k.uid then
      let i := t.at_ / 192
      match s.blocks.find? fun b => b.grid == k.uid && b.index == i with
      | some b => if b.st == .saved || b.st == .aborted then some i else none
      | none => if k.next ≤ i then some i else none
    else none
  | none => none

/-- The unit of a grid that is next (R363, R376): where the token waits, the unit of that block and no other; else blocks that come
back, then fresh ones. -/
def State.nextUnit (s : State) (k : Grid) : Option Waiting :=
  if k.st != .active || k.extentWait.isSome || s.strictBehind k || (s.part? k.die k.part).any (·.migrating) then none
  else
    let backs := sortRank (fun (b : Block) => [b.index]) (s.blocks.filter fun b => b.grid == k.uid && b.mayReturn)
    let fresh := if k.next < k.blocks then some (Waiting.fresh k.next) else none
    let usual := match backs.find? fun b => !s.heldBack b with | some b => some (.back b) | none => fresh
    match s.awaited k with
    | none => usual
    | some i =>
      if s.blocks.any fun b => b.grid == k.uid && b.index == i then (backs.find? fun b => b.index == i).map .back else fresh

/-- What ranks a unit of a partition (R363, R376). -/
def State.unitRank (s : State) (k : Grid) : List Nat :=
  let c := if k.cls < 2 then 2 * k.cls else if (s.awaited k).isSome then 3 else 2 * k.cls
  [c, if k.cls < 2 then k.deadline.toNat else 0, k.arrival]

/-- The slack of a unit of a class 0 grid lies below the margin of its partition (R372). -/
def State.slackLow (s : State) (k : Grid) : Bool :=
  k.cls == 0 && decide (signed 64 (k.deadline.toNat + 2 ^ 64 - s.stime % 2 ^ 64) < s.regN k.die (dpMargin k.part))

/-- The blocks of a grid that are held back: each ranks as a restore of its grid, which the others need not wait for (R363,
R375). -/
def State.heldUnits (s : State) (k : Grid) : List Waiting :=
  if k.st != .active || k.extentWait.isSome || (s.awaited k).isSome || (s.part? k.die k.part).any (·.migrating) then []
  else ((s.blocks.filter fun b => b.grid == k.uid && b.mayReturn && s.heldBack b).map Waiting.back)

/-- What ranks the units of one grid: blocks that come back, held back or not, before fresh ones, then the block index (R363). -/
def Waiting.rank : Waiting → List Nat
  | .back b => [0, b.index]
  | .fresh n => [1, n]

/-- The units of a stack in the order in which the dispatcher takes them (R363, R364). -/
def State.unitsOf (s : State) (die : Nat) : List (Grid × Waiting) :=
  let ws := (s.grids.filter fun k => k.die == die).flatMap fun k =>
    (s.heldUnits k ++ (s.nextUnit k).toList).map fun w => (k, w)
  let partRank := fun (p : Nat) =>
    let urgent := ws.any fun x => x.1.part == p && s.slackLow x.1
    let v := ((s.part? die p).map (·.vtime)).getD 0
    [if urgent then 0 else 1, if urgent then 0 else v, p]
  sortRank (fun x => partRank x.1.part ++ s.unitRank x.1 ++ x.2.rank) ws

/-! ### Reserved cores -/

/-- A unit still waits: its first block has no place. -/
def State.unitWaits (s : State) (u : Nat × Nat) : Bool :=
  match s.grid? u.1 with
  | none => false
  | some k =>
    k.st == .active &&
      (decide (k.next ≤ u.2) || s.blocks.any fun b => b.grid == u.1 && b.index == u.2 && (b.st == .saved || b.st == .aborted))

/-- A core is open to a unit of a grid: no switch request or pre-emption is pending on it on behalf of a class 0 or 1 unit,
unless the unit is of those classes itself (R363). -/
def State.coreFree (s : State) (k : Grid) (core : Nat) : Bool :=
  k.cls < 2 ||
    !(s.blocks.any fun b =>
      b.die == k.die && decide (b.core ≤ core) && decide (core < b.core + b.span) && (b.gives.any s.unitWaits))

/-! ### Placing one unit -/

/-- The header of a save area keeps every field's range (R323). -/
def headerOk (h : Nat) : Bool :=
  bits h 31 0 == 0x43565341 && bits h 47 32 == 1 && !bitAt h 51 && 1 ≤ bits h 63 56 && bits h 63 56 ≤ 192 &&
  1 ≤ bits h 68 64 && bits h 68 64 ≤ 16 && bits h 71 69 == 0 && bits h 78 72 ≤ 64 && bits h 95 79 == 0 &&
  (bits h 327 320 ≤ 23 || bits h 327 320 == 255) && 1 ≤ bits h 335 328 && bits h 335 328 ≤ 3 && h / 2 ^ 336 == 0

/-- A restore: the saved variant, or, at a switch point, the first smaller one that fits (R325). -/
def State.tryRestore (s : State) (p : Part) (k : Grid) (b : Block) (runs : List Run) (header : Nat) (fits : Nat → Nat → Bool) :
    Option State :=
  let v := bits header 49 48
  let saved := s.tryCores p k b.index v runs (some b) (some 3) fits p.cores
  match saved with
  | some s' => some s'
  | none =>
    if bits header 55 52 = 0 then none
    else
      (upFrom (v + 1) (k.variants.length - (v + 1))).findSome? fun n =>
        s.tryCores p k b.index n runs (some b) (some (0x100 + n)) fits p.cores

/-- What trying a unit comes to. -/
inductive Tried where
  | placed (s : State)
  /-- nothing was placed, but a record was written or the context ended -/
  | acted (s : State)
  | noFit

/-- A unit is tried: its extents are walked (R337, R338), a restore's header is read (R323). -/
def State.tryUnit (s : State) (p : Part) (k : Grid) (w : Waiting) (free : Nat → Bool) : Tried :=
  let fits := fun c span => (upFrom c span).all free
  let done := fun (o : Option State) => match o with | some t => Tried.placed t | none => .noFit
  match s.walkExtents p [] k.extents with
  | .inr (c, va) =>
    .acted ((s.translationRecord k.die k.part 0x23 (dispatcherAsker k.uid k.queue 0 va) c false).modGrid k.uid fun x =>
      { x with extentWait := some (va / 4096) })
  | .inl runs =>
    match w with
    | .fresh n => done (s.tryFresh p k n runs free)
    | .back b =>
      if b.st == .aborted then done (s.tryBlock p k b.index runs (some b) fits p.cores)
      else
        match s.readBytes k.die k.part b.save 64 with
        | .record c v =>
          .acted ((s.translationRecord k.die k.part c (dispatcherAsker k.uid k.queue 0 v) 0 false).modBlock b.uid fun x =>
            { x with abortPage := some (v / 4096) })
        | .refused _ _ => .acted (s.terminateGrid k 3 0xFD)
        | .ok bs =>
          if !headerOk (leNat bs) || k.variants.length ≤ bits (leNat bs) 49 48 then .acted (s.terminateGrid k 3 0xFD)
          else done (s.tryRestore p k b runs (leNat bs) fits)

/-- The unit has been placed: requests on its behalf are withdrawn, and nothing more is kept for it (R370, R371). -/
def State.unitPlaced (s : State) (u : Nat × Nat) : State :=
  let s1 := (s.blocks.filter fun b => b.req.any fun r => !r.upward && (r.forGrid, r.forBlock) == u).foldl
    (fun t b => t.withdraw b.uid) s
  { s1.unreserve u with
    blocks := s1.blocks.map fun b =>
      { b with forUnit := if b.forUnit == some u then none else b.forUnit
               wanted := if (b.wanted.bind (·.2)) == some u then none else b.wanted }
    grids := s1.grids.map fun k => if k.uid == u.1 then { k with spent := k.spent.filter (· != u.2) } else k }

/-! ### Admission -/

/-- The state without some blocks: what a trial placement sees (R370). -/
def State.without (s : State) (ids : List Nat) : State :=
  { s with blocks := s.blocks.filter fun b => !ids.contains b.uid
           groups := s.groups.filter fun g => !ids.contains g.block }

/-- The unit would fit in a state. -/
def State.wouldFit (s : State) (p : Part) (k : Grid) (w : Waiting) (free : Nat → Bool) : Bool :=
  match s.tryUnit p k w free with
  | .placed _ => true
  | _ => false

/-- The window of a group in a new variant: where it starts now if `stay` and that is free, else the lowest of its quarter. -/
def CoreUse.windowOf (u : CoreUse) (stay : Bool) (v : Variant) (g : Group) : Option Nat :=
  let a := g.quarter * 393216 + 128 * g.vbase
  if stay && a + v.windowBytes ≤ (g.quarter + 1) * 393216 && !(u.ranges.any fun r => overlaps r (a, v.windowBytes)) then some a
  else u.window v g.quarter

/-- Windows of groups that keep their quarters, in order, in a new variant. -/
def CoreUse.rewindow (stay : Bool) (v : Variant) : CoreUse → List Group → Option (List (Nat × Seat) × CoreUse)
  | u, [] => some ([], u)
  | u, g :: t =>
    let uni := ((u.uniform.filter fun x => x.1 == g.quarter).map (·.2)).sum
    if Config.quarterUniform < uni + v.uregs + 32 then none
    else
      match u.windowOf stay v g with
      | none => none
      | some a =>
        let x : Seat := { core := g.core, quarter := g.quarter, vbase := (a - g.quarter * 393216) / 128, rslot := g.rslot }
        match CoreUse.rewindow stay v (u.sit v x) t with
        | none => none
        | some (xs, u') => some ((g.index, x) :: xs, u')

/-- Places of a share that touch what is taken, or an end of the core store. -/
def CoreUse.butts (u : CoreUse) (share : Nat) : List Nat :=
  ((0 :: u.ranges.map fun (r : Nat × Nat) => r.1 + r.2) ++
    (Config.coreStoreBytes - share) :: ((u.ranges.filter fun (r : Nat × Nat) => decide (share ≤ r.1)).map fun r => r.1 - share)).filter
    fun a => a + share ≤ Config.coreStoreBytes && !(u.ranges.any fun r => overlaps r (a, share))

/-- The ways in which the share and the windows of a block on one core can stand in a new variant (log 9). -/
def CoreUse.conversions (u : CoreUse) (v : Variant) (share : Nat) (on : List Group) : List ((Nat × Nat) × List (Nat × Seat)) :=
  [true, false].flatMap fun stay =>
    (u.shareWith v.windowBytes share on.length fun x => CoreUse.rewindow stay v x on).toList ++
      (match CoreUse.rewindow stay v u on with
       | none => []
       | some (xs, u') => if share = 0 then [] else (u'.butts share).map fun a => ((a, share), xs))

/-- Lists side by side: the first of each, the second of each, and so on, the last of a shorter one repeated. -/
def abreast {α : Type} (ls : List (List α)) : List (List α) :=
  if ls.any (·.isEmpty) then []
  else (List.range ((ls.map (·.length)).foldl max 0)).map fun j => ls.filterMap fun l => l[min j (l.length - 1)]?

/-- The places for the block in another variant on the cores that it has, with its groups in their quarters (R34, R371). -/
def State.convertAllocs (s : State) (b : Block) (v : Variant) : List Alloc :=
  let gs := s.groupsOf b.uid
  let others := fun (x : Block) => x.uid != b.uid
  let cores := (List.range b.span).map fun i =>
    let u := s.coreUse others b.die (b.core + i)
    let on := gs.filter fun g => g.core == b.core + i
    if Config.coreTiles < u.tiles + v.acc * on.length then [] else u.conversions v (shareBytes v.scratch b.span i) on
  (abreast cores).map fun xs => { core := b.core, shares := xs.map (·.1), cols := b.cols, seats := xs.flatMap (·.2) }

/-- Some group of the block holds the token (R39). -/
def State.blockHoldsToken (s : State) (b : Block) : Bool := (s.groupsOf b.uid).any fun g => s.strictG g && s.holdsToken g

/-- The smaller variants of a resident block to which it could be asked to switch, the largest first, with their places. -/
def State.smaller (s : State) (b : Block) : List (Nat × List Alloc) :=
  let k := (s.grid? b.grid).getD {}
  if s.blockHoldsToken b then []
  else
    ((upFrom (b.variant + 1) (k.variants.length - (b.variant + 1))).map fun n =>
      (n, s.convertAllocs b ((k.variants[n]?).getD {}))).filter fun x => !x.2.isEmpty

/-- What ranks victims: class 3, 2, then 1, the latest-arrived grid, the highest index (R370). -/
def State.victimRank (s : State) (b : Block) : List Nat :=
  let k := (s.grid? b.grid).getD {}
  [3 - k.cls, 2 ^ 64 - k.arrival, 2 ^ 33 - b.index]

/-- A victim in another variant, as a trial sees it. -/
def State.converted (s : State) (b : Block) (n : Nat) (a : Alloc) : State :=
  let v := ((((s.grid? b.grid).getD {}).variants)[n]?).getD {}
  { s with
    blocks := s.blocks.map fun x => if x.uid == b.uid then { x with variant := n, shares := a.shares, req := none } else x
    groups := s.groups.map fun g =>
      if g.block == b.uid then
        { g with vwin := v.vregs, uwin := v.uregs, awin := v.acc
                 vbase := ((a.seats.find? fun e => e.1 == g.index).map fun e => e.2.vbase).getD g.vbase }
      else g }

/-- The last variant of a victim, where room for it can be reserved: what a request falls back to (R370). -/
def State.lastSwitch (s : State) (b : Block) : Option (Nat × Alloc) :=
  ((s.smaller b).find? fun o => o.1 + 1 == ((s.grid? b.grid).getD {}).variants.length).bind fun o => o.2.head?.map fun a => (o.1, a)

/-- The victim may be pre-empted: a class 1 block may not (R370, R371). -/
def State.mayEvict (s : State) (b : Block) : Bool := 2 ≤ ((s.grid? b.grid).getD {}).cls

/-- The least that a victim comes to hold: its last variant, or nothing where it has no request or, with `gone`, where it may be
pre-empted once its request has failed (R370, R371). -/
def State.least (s : State) (gone : Bool) (b : Block) : State :=
  if gone && s.mayEvict b then s.without [b.uid]
  else
    match s.lastSwitch b with
    | some (n, a) => s.converted b n a
    | none => if s.mayEvict b then s.without [b.uid] else s

/-- The blocks that may be victims of a unit in its partition: a class 1 block only by a request, for a class 0 unit for which no such
request has expired (R370, R371). -/
def State.victims (s : State) (k : Grid) (u : Nat × Nat) : List Block :=
  sortRank s.victimRank <| s.blocks.filter fun b =>
    let x := (s.grid? b.grid).getD {}
    b.die == k.die && x.part == k.part && b.st == .resident && b.wanted.isNone && (b.req.all fun r => r.upward) &&
      (2 ≤ x.cls || (x.cls == 1 && k.cls == 0 && !s.slackLow k && !k.spent.contains u.2 && (s.lastSwitch b).isSome))

/-- The victims on a span of cores, taken in order until the unit would fit beside what they come to hold: `t` is the trial so far. -/
def takeVictims (p : Part) (k : Grid) (w : Waiting) (free : Nat → Bool) (gone : Bool) :
    List Block → State → List Nat → Option (List Nat)
  | [], _, _ => none
  | b :: bs, t, ids =>
    let t1 := t.least gone b
    let ids := ids ++ [b.uid]
    if t1.wouldFit p k w free then some ids else takeVictims p k w free gone bs t1 ids

/-- The variant whose spans are considered: the last, but of a block that was saved at no switch point its own, which it comes back
in (R325, R370). -/
def Waiting.lastVariant (k : Grid) : Waiting → Option Variant
  | .fresh _ => k.variants.getLast?
  | .back b => if b.st == .saved && b.switchN == 0 then k.variants[b.variant]? else k.variants.getLast?

/-- The regions of cores considered: for a unit of one block the spans of its last variant, for one of several, placed all at once, the
whole rectangle (R366, R367, R370). -/
def unitRegions (p : Part) (k : Grid) (w : Waiting) : List (List Nat) :=
  if (match w with | .fresh _ => k.unitSize != 1 | .back _ => false) then [p.cores]
  else
    let span := ((w.lastVariant k).map (·.span)).getD 1
    (p.cores.filter fun c => p.spanFits c span).map fun c => upFrom c span

/-- The victims of a unit: the fewest over its regions, the first of equals. -/
def State.fewestVictims (s : State) (p : Part) (k : Grid) (w : Waiting) (free : Nat → Bool) (gone : Bool) : Option (List Nat) :=
  let vs := s.victims k (k.uid, w.first)
  (unitRegions p k w).foldl (fun (m : Option (List Nat)) r =>
    match takeVictims p k w free gone (vs.filter fun b => r.any fun c => b.core ≤ c && c < b.core + b.span) s [] with
    | none => m
    | some ids =>
      match m with
      | some x => if x.length ≤ ids.length then m else some ids
      | none => some ids) none

/-- The victims of a unit, and whether it takes pre-emptions: as resources stand after the switches of those that can switch; where
no victims would do so, as they stand once the blocks whose requests fail are pre-empted, an order that the model chooses (R370,
log 127). A unit whose slack is low makes no request (R372). -/
def State.chooseVictims (s : State) (p : Part) (k : Grid) (w : Waiting) (free : Nat → Bool) : Option (List Nat × Bool) :=
  let evict := (s.fewestVictims p k w free true).map fun ids => (ids, true)
  if s.slackLow k then evict else ((s.fewestVictims p k w free false).map fun ids => (ids, false)).orElse fun _ => evict

/-- The trial beside one victim: the others as they have been asked to become, or, not asked yet, the least they come to hold. -/
def State.besides (s : State) (gone : Bool) (ids : List Nat) (id : Nat) : State :=
  (ids.filter (· != id)).foldl (fun (t : State) i =>
    match t.block? i with
    | none => t
    | some b =>
      match b.req with
      | some r => if r.upward then t.least gone b else t.converted b r.target r.alloc
      | none => if b.st != .resident || b.wanted.isSome then t.without [i] else t.least gone b) s

/-- The switch that a victim is asked for: to the largest smaller variant whose use frees enough beside the other victims,
or else to its last (R370). -/
def State.chooseSwitch (s : State) (p : Part) (k : Grid) (w : Waiting) (free : Nat → Bool) (gone : Bool) (ids : List Nat) (b : Block) :
    Option (Nat × Alloc) :=
  let t := s.besides gone ids b.uid
  ((s.smaller b).findSome? fun o =>
    (o.2.find? fun a => (t.converted b o.1 a).wouldFit p k w free).map fun a => (o.1, a)).orElse fun _ => s.lastSwitch b

/-- One victim receives a switch request, or is pre-empted at once with reason 0 (R370). -/
def State.claim (s : State) (p : Part) (k : Grid) (w : Waiting) (free : Nat → Bool) (gone : Bool) (ids : List Nat) (id : Nat) : State :=
  match s.block? id with
  | none => s
  | some b =>
    let u := (k.uid, w.first)
    let usable := if s.slackLow k then none else s.chooseSwitch p k w free gone ids b
    match usable with
    | some (n, a) =>
      (s.withdraw id).modBlock id fun x =>
        { x with req := some { target := n, posted := s.clk, forGrid := u.1, forBlock := u.2, alloc := a } }
    | none => if s.mayEvict b then s.wantPreempt id 0 (some u) else s

/-- Victims of the unit have not yet given what they were asked for. -/
def State.admitting (s : State) (u : Nat × Nat) : Bool :=
  s.blocks.any fun b => b.gives == some u

/-- Admission of a class 0 or 1 unit that does not fit (R370). -/
def State.admission (s : State) (p : Part) (k : Grid) (w : Waiting) (free : Nat → Bool) : Option State :=
  if 2 ≤ k.cls || s.admitting (k.uid, w.first) then none
  else (s.chooseVictims p k w free).map fun v => v.1.foldl (fun t id => t.claim p k w free v.2 v.1 id) s

/-- A block of a grid has its place on cores: it runs, stops, is saved, restored or moved. -/
def Block.inPlace (b : Block) : Bool :=
  b.st == .resident || b.st == .stopping || b.st == .saving || b.st == .restoring || b.st == .frozen

/-- The block at which the token of a grid waits does not fit, and other blocks of the grid are still in place: their room is for it
(R376). -/
def State.clearing (s : State) (k : Grid) : Bool :=
  (s.awaited k).isSome && s.blocks.any fun b => b.grid == k.uid && b.inPlace

/-- The block at which the token waits does not fit: the block of its grid in place with the highest index is pre-empted with reason 2,
one after the other, each as soon as it runs and the save pool has room for it (R318, R376); in class 0 or 1 on behalf of the unit that
waits (R363, log 152). -/
def State.makeRoom (s : State) (k : Grid) (first : Nat) : Option State :=
  if !s.clearing k || s.blocks.any fun b => b.grid == k.uid && (b.st == .stopping || b.st == .saving) then none
  else
    let bs := sortRank (fun (b : Block) => [2 ^ 33 - b.index]) (s.blocks.filter fun b => b.grid == k.uid && b.inPlace)
    bs.head?.bind fun b =>
      (s.preempt b.uid 2).map fun t => t.modBlock b.uid fun x => { x with forUnit := if k.cls < 2 then some (k.uid, first) else none }

/-! ### UNIT_PLACEMENT -/

/-- The units of the children on which a parked block waits would fit in a state in which it has returned: it displaces none of
them (R375). -/
def State.childrenFit (s : State) (b : Block) : Bool :=
  (s.joinsOpen b).all fun k =>
    match s.nextUnit k, s.part? k.die k.part with
    | some w, some p => (s.unreserve (k.uid, w.first)).wouldFit p k w (s.coreFree k)
    | _, _ => true

/-- The block that a unit holds back (R375). -/
def State.heldBlock (s : State) : Waiting → Option Block
  | .back b => if s.heldBack b then some b else none
  | .fresh _ => none

/-- A unit has been placed at this clk (R364). -/
def State.placedUnit (s : State) (k : Grid) (u : Nat × Nat) : State :=
  let d := s.die k.die
  (s.setDie k.die { d with placeAt := s.clk + 4 }).unitPlaced u

/-- What was kept for units that still wait is kept again, after a unit has been tried with what was kept for it. -/
def State.rereserve (s : State) (old : List Reserve) : State :=
  { s with reserves := old.filter fun r => s.unitWaits (r.grid, r.first) }

/-- The units that stand behind one that does not fit: while room is made for the block at which a token waits, no class 2 or 3 unit of
another grid of its partition is placed (R376). -/
def State.unitsBehind (s : State) (k : Grid) (t : List (Grid × Waiting)) : List (Grid × Waiting) :=
  if s.clearing k then t.filter fun x => x.1.part != k.part || x.1.uid == k.uid || x.1.cls < 2 else t

/-- The first unit in order that can be placed, or for which something is done. A unit may take what is kept for it (R370). A block
that is held back takes nothing that a unit of its children needs, and no victim makes room for it (R375). The number bounds the units
that are tried. -/
def State.placeFrom (s : State) : Nat → List (Grid × Waiting) → State
  | 0, _ => s
  | _, [] => s
  | fuel + 1, (k, w) :: t =>
    match s.part? k.die k.part with
    | none => s.placeFrom fuel t
    | some p =>
      let u := (k.uid, w.first)
      let s0 := s.unreserve u
      let free := s.coreFree k
      match s0.tryUnit p k w free, s.heldBlock w with
      | .placed s', none => s'.placedUnit k u
      | .placed s', some b => if s'.childrenFit b then s'.placedUnit k u else s.placeFrom fuel t
      | .acted s', _ => s'.rereserve s.reserves
      | .noFit, h =>
        match if h.isSome then none else s0.admission p k w free with
        | some s' => s'.rereserve s.reserves
        | none =>
          match s.makeRoom k w.first with
          | some s' => s'
          | none => s.placeFrom fuel (s.unitsBehind k t)

/-- The units of a list are tried in order. -/
def State.placeFirst (s : State) (ws : List (Grid × Waiting)) : State := s.placeFrom ws.length ws

/-- UNIT_PLACEMENT: at most one unit is placed per 4 clk (R364). -/
def execUnitPlacement (die : Nat) (s : State) : Host.Outcome State Fault Refusal :=
  if s.clk < (s.die die).placeAt || (s.die die).power.st != 0 then .next s else .next (s.placeFirst (s.unitsOf die))

/-! ### Requests -/

/-- Clocks of 50 µs (R36, R371). -/
def requestLimit : Nat := 50 * clkPerUs

/-- A block whose request has ended is pre-empted for the unit it served (R36, R318). -/
def State.preemptFor (s : State) (b : Block) (r : Request) : State := s.wantPreempt b.uid 0 (some (r.forGrid, r.forBlock))

/-- SWITCH_REQUEST_EXPIRY: after 50 µs a request is withdrawn; the block of a request that is neither upward nor to a class 1
block is pre-empted. After that of a class 1 block only class 2 and 3 victims are looked for (R36, R371). -/
def execSwitchRequestExpiry (b : Nat) (s : State) : Host.Outcome State Fault Refusal :=
  match s.block? b with
  | none => .next s
  | some x =>
    match x.req with
    | none => .next s
    | some r =>
      if s.clk < r.posted + requestLimit then .next s
      else if r.upward then .next (s.withdraw b)
      else if ((s.grid? x.grid).getD {}).cls == 1 then
        .next ((s.withdraw b).modGrid r.forGrid fun y => { y with spent := r.forBlock :: y.spent })
      else .next (s.preemptFor x r)

/-- SLACK_BELOW_MARGIN: the requests made for a class 0 unit are withdrawn, and its class 2 and 3 victims pre-empted (R372). -/
def execSlackBelowMargin (die k : Nat) (s : State) : Host.Outcome State Fault Refusal :=
  match s.grid? k with
  | none => .next s
  | some x =>
    if x.die != die || !s.slackLow x || !s.gridWaits x then .next s
    else
      .next ((s.blocks.filter fun b => b.req.any fun r => !r.upward && r.forGrid == k).foldl (fun t b =>
        match b.req with
        | none => t
        | some r => if ((t.grid? b.grid).getD {}).cls < 2 then t.withdraw b.uid else t.preemptFor b r) s)

/-- A class 0 or 1 unit of the partition waits on the stack. -/
def State.urgentWaits (s : State) (die part : Nat) : Bool :=
  s.grids.any fun k => k.die == die && k.part == part && k.cls < 2 && (s.nextUnit k).isSome

/-- UPWARD_SWITCH_REQUEST: the smallest-numbered variant that fits on the block's span, with its room reserved (R371). -/
def execUpwardSwitchRequest (b : Nat) (s : State) : Host.Outcome State Fault Refusal :=
  match s.block? b with
  | none => .next s
  | some x =>
    let k := (s.grid? x.grid).getD {}
    if x.st != .resident || x.req.isSome || x.variant = 0 || s.urgentWaits x.die k.part || s.blockHoldsToken x then .next s
    else
      match (List.range x.variant).findSome? fun n => (s.convertAllocs x ((k.variants[n]?).getD {})).head?.map fun a => (n, a) with
      | none => .next s
      | some (n, a) =>
        .next (s.modBlock b fun y => { y with req := some { target := n, posted := s.clk, upward := true, alloc := a } })

/-! ### Parks -/

/-- Clocks of 20 µs (R375). -/
def parkWait : Nat := 20 * clkPerUs

/-- Since when a unit of a grid has waited unplaced: a fresh one since the grid arrived, a block that comes back since its save or
abort (R375). -/
def waitedFrom (k : Grid) : Waiting → Nat
  | .fresh _ => k.waitFrom
  | .back b => b.waitFrom

/-- A unit of a child has waited long enough, and would fit if the block were gone. -/
def State.childHelped (s : State) (b : Block) (k : Grid) : Bool :=
  match s.nextUnit k, s.part? k.die k.part with
  | some w, some p => waitedFrom k w + parkWait ≤ s.clk && ((s.without [b.uid]).unreserve (k.uid, w.first)).wouldFit p k w (s.coreFree k)
  | _, _ => false

/-- The first child that some group of the block joins and that its park would help. -/
def State.parkFor (s : State) (b : Block) : Option Grid :=
  ((s.groupsOf b.uid).filter fun g => g.mode == .kernel && g.inJoin).findSome? fun g => (s.children g).find? (s.childHelped b)

/-- The unit on whose behalf a park for a child is pending: one of class 0 or 1 (R363, log 152). -/
def State.parkUnit (s : State) (k : Grid) : Option (Nat × Nat) :=
  if k.cls < 2 then (s.nextUnit k).map fun w => (k.uid, w.first) else none

/-- BLOCK_PARK: a pre-emption with reason 2; the block is parked until its joins can return (R375). -/
def execBlockPark (b : Nat) (s : State) : Host.Outcome State Fault Refusal :=
  match s.block? b with
  | none => .next s
  | some x =>
    match if x.st == .resident then s.parkFor x else none with
    | none => .next s
    | some k =>
      .next (((s.preempt b 2).map fun t => t.modBlock b fun y => { y with parked := true, forUnit := s.parkUnit k }).getD s)

/-! ### Retirement -/

/-- The place of a block of a strict grid in the order of retirement (R368). -/
def Grid.retireKey (k : Grid) (index : Nat) : Nat × Nat :=
  (index / (k.x * k.y), hilbertIndex (index % k.x) (index / k.x % k.y) (log2Up (max k.x k.y)))

/-- How many blocks of a strict grid retire before one. -/
def Grid.retireRank (k : Grid) (index : Nat) : Nat :=
  let (z, h) := k.retireKey index
  z * (k.x * k.y) +
    ((List.range (k.x * k.y)).filter fun i => (k.retireKey i).2 < h).length

/-- The 64-byte header of a block record (R369). -/
def recordHeader (b : Block) (clk : Nat) : List Byte :=
  leBytes 64 (b.index + b.core * 2 ^ 64 + b.die * 2 ^ 71 + b.startVariant * 2 ^ 100 + b.variant * 2 ^ 102 +
    min b.switches 255 * 2 ^ 104 + (b.startClk.getD 0) % 2 ^ 64 * 2 ^ 128 + clk % 2 ^ 64 * 2 ^ 192 + b.moves * 2 ^ 256)

/-- The stores of a record, 64 bytes at a time; the first that is refused drops the rest. -/
def State.recordStores (s : State) (k : Grid) : List (Nat × List Byte) → State
  | [] => s
  | (va, bs) :: t =>
    let (ok, s') := s.dispatcherStore k.die k.part k.uid k.queue va bs
    if ok then s'.recordStores k t else s'

/-- The block record (R369). -/
def State.blockRecord (s : State) (k : Grid) (b : Block) : State :=
  if k.record = 0 then s
  else
    let base := k.record + b.index * (64 + 64 * k.groups)
    let rows := (List.range k.groups).map fun i =>
      (base + 64 + 64 * i, ((b.keeps.find? fun x => x.index == i).map (·.stalls)).getD [] |>.flatMap (leBytes 4))
    s.recordStores k ((base, recordHeader b s.clk) :: rows)

/-- Under the hold option the scratchpads of a neighbourhood are freed when its last block retires (R16). -/
def State.freeNbhd (s : State) (k : Grid) (index : Nat) : State :=
  if k.nbhd = 0 || !k.hold then s
  else
    let first := index / k.nbhd * k.nbhd
    let mine := s.blocks.filter fun b => b.grid == k.uid && first ≤ b.index && b.index < first + k.nbhd
    if (mine.filter fun b => b.st == .retired).length = k.nbhd then
      { s with blocks := s.blocks.map fun b => if mine.any fun m => m.uid == b.uid then { b with shares := [] } else b }
    else s

/-- BLOCK_RETIREMENT: a finished block retires, in curve order in a strict grid (R31, R368, R369). -/
def execBlockRetirement (b : Nat) (s : State) : Host.Outcome State Fault Refusal :=
  match s.block? b with
  | none => .next s
  | some x =>
    let k := (s.grid? x.grid).getD {}
    if x.st != .finished || (k.strict && k.retireRank x.index != k.retired) then .next s
    else
      let s1 := (s.blockRecord k x).modBlock b fun y => { y with st := .retired }
      let s2 := s1.modGrid k.uid fun y => { y with retired := y.retired + 1 }
      .next (({ s2 with pool := s2.pool.filter fun a => a.block != b } : State).freeNbhd k x.index)

/-- Some child grid of the grid has not retired (R31). -/
def State.childActive (s : State) (k : Grid) : Bool :=
  s.grids.any fun x => x.st == .active &&
    (match x.parent with
     | some g => ((s.block? (g / 192)).map (·.grid)) == some k.uid
     | none => false)

/-- What the release bit waits for: copies, forwarded records, bands that egress has not read (R86). Forwarded records hold
back every report (R83). -/
def State.releaseDone (s : State) (k : Grid) : Bool :=
  !(s.forwards.any fun f => f.grid == k.uid) &&
  (!k.release ||
    (!(s.copies.any fun c => ((s.block? (c.owner / 192)).map (·.grid)) == some k.uid) &&
     !(s.bands.any fun b => b.grid == k.uid && b.data.isNone && !b.dead)))

/-- GRID_COMPLETION: a grid retires with its last block and child, and is reported (R31, R86, R360). -/
def execGridCompletion (k : Nat) (s : State) : Host.Outcome State Fault Refusal :=
  match s.grid? k with
  | none => .next s
  | some x =>
    let done := x.st == .active && x.retired == x.blocks && !s.childActive x
    let s1 := if done then s.modGrid k fun y => { y with st := .retired } else s
    if (done || x.st == .retired) && s1.releaseDone x then
      let s2 := s1.reportGrid x 0 0
      .next { s2 with
        grids := s2.grids.map fun y => if y.uid == k then { y with st := .complete } else y
        tokens := s2.tokens.filter fun t => t.grid != k
        blocks := s2.blocks.filter fun b => b.grid != k || s2.copies.any fun c => c.owner / 192 == b.uid }
    else .next s1

/-- COALESCE_TIMER_EXPIRY (R378). -/
def execCoalesceTimerExpiry (die q : Nat) (s : State) : Host.Outcome State Fault Refusal :=
  let c := s.coalesceOf die q
  match c.timer with
  | none => .next s
  | some t =>
    if s.clk < t then .next s
    else if 0 < c.pending then .next ((s.queueMsi die q).setCoalesce die q {})
    else .next (s.setCoalesce die q {})

end Sys2Proof.Machine
end

