-- ==== Sys2Proof/Machine/Matrix.lean ====
section
/-! DEFINITION. Matrix operations and operand streams: segments (R235, R238), the element a stream read finds (R236, R237), the
checks and the arithmetic of `mma` (R113 to R117, R240 to R247), tile order (R248), moving tiles (R251 to R253),
`vfeed` (R254, R255) and the requantising transposer (R256 to R258). -/
namespace Sys2Proof.Machine

/-! ### The fields of a description -/

/-- The shape record (R240). -/
def MmaDesc.shape (d : MmaDesc) : Nat := d.s0.toNat + 2 ^ 32 * d.s1.toNat
/-- The format word of A, or of B (R241). -/
def MmaDesc.fmt (d : MmaDesc) (b : Bool) : Nat := if b then d.w2.toNat + 2 ^ 32 * d.w3.toNat else d.w0.toNat + 2 ^ 32 * d.w1.toNat
/-- Rows of the result. -/
def MmaDesc.m (d : MmaDesc) : Nat := 16 * (bits d.shape 2 0 + 1)
/-- Columns of the result on one core. -/
def MmaDesc.n (d : MmaDesc) : Nat := 16 * (bits d.shape 5 3 + 1)
/-- K-steps. -/
def MmaDesc.steps (d : MmaDesc) : Nat := bits d.shape 13 6 + 1
/-- The base tile. -/
def MmaDesc.base (d : MmaDesc) : Nat := bits d.shape 24 15
/-- Pair width. -/
def MmaDesc.wide (d : MmaDesc) : Bool := bitAt d.shape 14
/-- Tiles of the result. -/
def MmaDesc.count (d : MmaDesc) : Nat := (d.m / 16) * (d.n / 16)
/-- Negate every element of A, or of B. -/
def MmaDesc.neg (d : MmaDesc) (b : Bool) : Bool := bitAt d.shape (if b then 26 else 25)
/-- Accumulate-disable. -/
def MmaDesc.fresh (d : MmaDesc) : Bool := bitAt d.shape 27
/-- The head of the operand advances. -/
def MmaDesc.consume (d : MmaDesc) (b : Bool) : Bool := bitAt d.shape (if b then 29 else 28)
/-- The head offset in elements. -/
def MmaDesc.off (d : MmaDesc) (b : Bool) : Nat := if b then bits d.shape 63 49 else bits d.shape 48 34
/-- The stride in elements. -/
def MmaDesc.stride (d : MmaDesc) (b : Bool) : Nat := 2 ^ (if b then bits d.shape 33 32 else bits d.shape 31 30)
/-- The format code of an operand. -/
def MmaDesc.code (d : MmaDesc) (b : Bool) : Nat := bits (d.fmt b) 2 0
/-- The scale mode. -/
def MmaDesc.smode (d : MmaDesc) (b : Bool) : Nat := bits (d.fmt b) 4 3
/-- A is sparse. -/
def MmaDesc.sparse (d : MmaDesc) : Bool := bitAt (d.fmt false) 7
/-- Bits of an element of a format code (R236). -/
def codeBits (c : Nat) : Nat := if c < 2 then 16 else if c = 4 then 4 else 8
/-- The floating format of a code. -/
def codeFmt (c : Nat) : Fmt :=
  match c with
  | 0 => fp16
  | 1 => bf16
  | 2 => e4m3
  | 3 => e5m2
  | _ => e2m1
/-- INT8 operands. -/
def MmaDesc.int (d : MmaDesc) : Bool := d.code false == 5
/-- Elements that an operand has (R244). -/
def MmaDesc.elements (d : MmaDesc) (b : Bool) : Nat :=
  if b then 16 * d.steps * d.n else if d.sparse then 8 * d.steps * d.m else 16 * d.steps * d.m
/-- Positions that a consumed operand takes (R244). -/
def MmaDesc.taken (d : MmaDesc) (b : Bool) : Nat := d.stride b * d.elements b * codeBits (d.code b) / 256
/-- Metadata positions of a sparse A (R237). -/
def MmaDesc.metaTaken (d : MmaDesc) : Nat := 4 * d.steps * d.m * 4 / 256

/-! ### Streams -/

/-- The index of element `n` in its segment (R236). -/
def streamIndex (len w h o d n : Nat) : Nat := (h * 256 / w + o + d * n) % (len * 256 / w)

/-- Element `e` of width `w` of packed bytes: in byte ⌊e·w/8⌋, the low nibble first. -/
def packedElem (byte : Nat → Nat) (w e : Nat) : Nat :=
  if w = 4 then byte (e / 2) / 16 ^ (e % 2) % 16
  else if w = 8 then byte e
  else byte (2 * e) + 256 * byte (2 * e + 1)

/-- Logical element `n` that a read finds in a segment. -/
def Segment.elem (x : Segment) (w h o d n : Nat) : Nat :=
  packedElem (fun k => (Mem.byte x.bytes k).toNat) w (streamIndex x.len w h o d n)

/-- The streams of an `mma` and the scales it reads. -/
structure MmaIn where
  d : MmaDesc
  a : Segment := {}
  b : Segment := {}
  m : Segment := {}
  /-- the head of B -/
  hB : Nat := 0
  /-- a little-endian number of the share: offset and bytes -/
  aShare : Nat → Nat → Nat
  bShare : Nat → Nat → Nat

/-- Element `n` of A. -/
def MmaIn.aElem (x : MmaIn) (n : Nat) : Nat :=
  x.a.elem (codeBits (x.d.code false)) x.d.posA (x.d.off false) (x.d.stride false) n
/-- Element `n` of B. -/
def MmaIn.bElem (x : MmaIn) (n : Nat) : Nat := x.b.elem (codeBits (x.d.code true)) x.hB (x.d.off true) (x.d.stride true) n
/-- The metadata nibble `n`. -/
def MmaIn.mElem (x : MmaIn) (n : Nat) : Nat := x.m.elem 4 x.d.posM 0 1 n

/-- The pairs of elements whose products a K-step forms (R237, R247). -/
def MmaIn.pairs (x : MmaIn) (i j s : Nat) : List (Nat × Nat) :=
  let b := fun u => x.bElem ((s * x.d.n + j) * 16 + u)
  if x.d.sparse then
    (List.range 8).map fun v =>
      let k := x.mElem (4 * (s * x.d.m + i) + v / 2)
      (x.aElem ((s * x.d.m + i) * 8 + v), b (4 * (v / 2) + (if v % 2 = 0 then k % 4 else k / 4)))
  else (List.range 16).map fun u => (x.aElem ((s * x.d.m + i) * 16 + u), b u)

/-- A number, negated or not. -/
def Num.signedBy (x : Num) (neg : Bool) : Num := if neg then x.negate else x
/-- A number times a power of two. -/
def Num.shift (x : Num) (k : Int) : Num :=
  match x with
  | .fin s m e => .fin s m (e + k)
  | y => y
/-- The number is a NaN. -/
def Num.isNan : Num → Bool
  | .nan _ => true
  | _ => false

/-- The scale of a row or column in block mode (R117, R241). -/
def MmaIn.blockScale (x : MmaIn) (b : Bool) (r s : Nat) : Nat :=
  let at_ := bits (x.d.fmt b) 52 32 + r + bits (x.d.fmt b) 31 16 * (s / 2)
  if b then x.bShare at_ 1 else x.aShare at_ 1

/-- The sum of the products of a K-step: −0 only where all sixteen products of the step are −0. A sparse step forms eight of
them, and the others are no −0 (R114, R247). -/
def MmaIn.stepSum (x : MmaIn) (ps : List Num) : Num :=
  match Num.sum false ps with
  | .fin true 0 e => .fin (!x.d.sparse) 0 e
  | y => y

/-- The exact sum of the products of a K-step (R113, R114, R117). -/
def MmaIn.sum (x : MmaIn) (i j s : Nat) : Num :=
  let ps := (x.pairs i j s).map fun p =>
    (((codeFmt (x.d.code false)).num p.1).signedBy (x.d.neg false), ((codeFmt (x.d.code true)).num p.2).signedBy (x.d.neg true))
  if x.d.smode false = 2 then
    let ea := x.blockScale false i s
    let eb := x.blockScale true j s
    if ps.any fun p => p.1.isNan || p.2.isNan then .nan 1
    else if ea = 255 || eb = 255 then .nan 2
    else (x.stepSum (ps.map fun p => Num.mul p.1 p.2)).shift ((ea + eb : Nat) - 254)
  else x.stepSum (ps.map fun p => Num.mul p.1 p.2)

/-! ### Arithmetic -/

/-- An accumulator in its course: the first K-step of an accumulate-disable operation writes instead of adding, and a NaN
stays (R113, R114). -/
def accumulate (st : Bool × Nat) (v : Num) : Bool × Nat :=
  if st.1 && fp32.isNan st.2 then st
  else if st.1 then (true, fp32.pack 0 (Num.add false (fp32.num st.2) v))
  else (true, fp32.pack 0 v)

/-- The wide scale of A for a row, or of B, in a K-block (R116, R241). -/
def MmaIn.wideScale (x : MmaIn) (b : Bool) (i blk : Nat) : Num :=
  let at_ := bits (x.d.fmt b) 52 32 + (if b then 0 else 4 * i) + bits (x.d.fmt b) 31 16 * blk
  match fp32.num (if b then x.bShare at_ 4 else x.aShare at_ 4) with
  | .nan _ => .nan 2
  | y => y

/-- The scaled sum of a K-block (R116). -/
def MmaIn.block (x : MmaIn) (i j blk : Nat) : Num :=
  let ss := (upFrom (8 * blk) 8).filter (· < x.d.steps)
  let p := ss.foldl (fun p s => fp32.pack 0 (Num.add false (fp32.num p) (x.sum i j s))) 0
  Num.mul (Num.mul (fp32.num p) (x.wideScale false i blk)) (x.wideScale true i blk)

/-- An INT8 K-step (R115). -/
def MmaIn.intSum (x : MmaIn) (i j s : Nat) : Int :=
  (x.pairs i j s).foldl (fun (t : Int) p =>
    let a := signed 8 p.1
    let b := signed 8 p.2
    t + (if x.d.neg false then -a else a) * (if x.d.neg true then -b else b)) 0

/-- The new value of an output element from its old one (R113, R115, R116, R117). -/
def MmaIn.element (x : MmaIn) (i j : Nat) (old : Word) : Word :=
  if x.d.int then
    let t := (List.range x.d.steps).foldl (fun (t : Int) s => t + x.intSum i j s) 0
    BitVec.ofInt 32 (if x.d.fresh then t else old.toNat + t)
  else
    let vs :=
      if x.d.smode false = 1 then (List.range ((x.d.steps + 7) / 8)).map (x.block i j)
      else (List.range x.d.steps).map (x.sum i j)
    word (vs.foldl accumulate (!x.d.fresh, old.toNat)).2

/-! ### Tiles -/

/-- The group with words of tiles of a level written. -/
def Group.setTiles (g : Group) (level : Nat) (ws : List (Nat × Word)) : Group :=
  let f := fun (r : Regs) => ws.foldl (fun r p => Cells.set 0 r p.1 p.2) r
  if level = 0 then { g with tile := f g.tile } else { g with svreg := f g.svreg }
/-- The key of output element (i, j) (R234). -/
def MmaDesc.key (d : MmaDesc) (i j : Nat) : Nat := 256 * (d.base + i / 16 * (d.n / 16) + j / 16) + 16 * (i % 16) + j % 16

/-- The result of an `mma` in the tiles of a group. -/
def MmaIn.result (x : MmaIn) (old : Regs) : List (Nat × Word) :=
  (List.range x.d.m).flatMap fun i => (List.range x.d.n).map fun j =>
    (x.d.key i j, x.element i j (Cells.get 0 old (x.d.key i j)))

/-- What an uncorrectable error makes of the output tiles (R250). -/
def MmaDesc.spoiled (d : MmaDesc) : List (Nat × Word) :=
  (upFrom (256 * d.base) (256 * d.count)).map fun k => (k, if d.int then 0x80000000 else 0x7FC00005)

/-! ### Checks -/

/-- MATRIX_COMBINATION by the fields alone (R240 to R242). -/
def MmaDesc.combinationBad (d : MmaDesc) : Bool :=
  let one := fun (b : Bool) =>
    bits (d.fmt b) 63 53 != 0 || bits (d.fmt b) 15 8 != 0 || bits (d.fmt b) 6 5 != 0 || d.smode b == 3 || decide (5 < d.code b) ||
      (d.smode b == 0 && (bits (d.fmt b) 52 32 != 0 || bits (d.fmt b) 31 16 != 0))
  let fp8 := fun (c : Nat) => c == 2 || c == 3
  let a := d.code false
  let b := d.code true
  let ok :=
    (a == b && decide (a < 2) && d.smode false == 0) || (fp8 a && fp8 b) ||
    (a == 4 && b == 4 && d.smode false == 2 && !d.sparse) || (a == 5 && b == 5 && d.smode false == 0 && !d.sparse)
  one false || one true || bitAt (d.fmt true) 7 || d.smode false != d.smode true || !ok ||
    bits d.shape 31 30 == 3 || bits d.shape 33 32 == 3

/-- The read of an operand does not fit its segment, or there is none (R243). -/
def MmaDesc.extentBad (d : MmaDesc) (b : Bool) (x : Option Segment) : Bool :=
  match x with
  | none => true
  | some x => decide (x.len * 256 / codeBits (d.code b) ≤ d.off b + d.stride b * (d.elements b - 1))

/-- The scale blocks along K (R241). -/
def MmaDesc.scaleBlocks (d : MmaDesc) : Nat := if d.smode false = 1 then (d.steps + 7) / 8 else (d.steps + 1) / 2

/-- The offsets and bytes of the scales of an operand. -/
def MmaDesc.scales (d : MmaDesc) (b : Bool) : List (Nat × Nat) :=
  let o := bits (d.fmt b) 52 32
  let st := bits (d.fmt b) 31 16
  if d.smode false = 0 then []
  else (List.range d.scaleBlocks).map fun k =>
    if d.smode false = 1 then (o + st * k, if b then 4 else 4 * d.m)
    else (o + st * k, if b then d.n else d.m)

/-- MISALIGNED of wide scales. -/
def MmaDesc.scaleMisaligned (d : MmaDesc) : Bool :=
  d.smode false == 1 && (d.scales false ++ d.scales true).any fun r => r.1 % 4 != 0

/-- Scales that do not lie in a share. -/
def scalesOut (rs : List (Nat × Nat)) (share : Nat) : Bool := rs.any fun r => decide (share < r.1 + r.2)

/-- The partner of pair width (R243). -/
def State.partner (s : State) (g : Group) : Option Group :=
  s.groups.find? fun x => x.block == g.block && x.index == g.index + 64 && x.die == g.die && x.core == g.core + 1 && !x.exited

/-- The checks of R243 after the register fields, in order; a handler may not consume (R259), which the model checks between
REGISTER_RANGE and MATRIX_COMBINATION, its own choice (log 116). -/
def State.mmaFault (s : State) (g : Group) (d : MmaDesc) : Option (Code × Word) :=
  let p := s.partner g
  let out := decide (g.window < d.base + d.count)
  let pOut := d.wide && (match p with | some x => decide (x.awin < d.base + d.count) | none => false)
  if out || pOut then some (.registerRange, word (max d.base g.window))
  else if g.inHandler && (d.consume false || d.consume true) then some (.accessViolation, 0)
  else if d.combinationBad || (d.wide && (g.core % 2 == 1 || p.isNone)) || d.extentBad false g.segA || d.extentBad true g.segB ||
      (d.sparse && g.segM.isNone) || (d.wide && d.extentBad true ((p.map (·.segB)).getD none)) then some (.matrixCombination, 0)
  else if d.scaleMisaligned then some (.misaligned, 0)
  else if scalesOut (d.scales false ++ d.scales true) (s.ownShare g).2 ||
      (d.wide && (match p with | some x => scalesOut (d.scales true) (s.ownShare x).2 | none => false)) then
    some (.sliceUnmapped, 0)
  else none

/-! ### Order -/

/-- The tiles that an operation reads or writes: group, shadow tiles or not, first and number (R248). -/
def tileSets (g : Group) (o : Op) : List (Nat × Bool × Nat × Nat) :=
  match o.work.tiles with
  | none => []
  | some (f, n) =>
    (g.uid, o.level != 0, f, n) ::
      (match o.work with
       | .mma d => (d.pair.toList.map fun p => (p, false, f, n))
       | _ => [])

/-- Two sets share a tile. -/
def tilesMeet (a b : Nat × Bool × Nat × Nat) : Bool :=
  a.1 == b.1 && a.2.1 == b.2.1 && overlaps (a.2.2.1, a.2.2.2) (b.2.2.1, b.2.2.2)

/-- The cores whose arrays an operation takes (R233). -/
def arrayCores (g : Group) (o : Op) : List Nat :=
  match o.work with
  | .mma d => [g.die * 128 + g.core] ++ (if d.wide then [g.die * 128 + g.core + 1] else [])
  | .mqt .. => []
  | w => if w.isMatrix then [g.die * 128 + g.core] else []

/-- A transfer waits for a page or for the commit token (R252). -/
def State.transferStuck (s : State) (g : Group) (o : Op) : Bool :=
  o.work.isTransfer && (o.wait.isSome || (match o.work with | .mtst _ _ a => a.held && !s.holdsToken g | _ => false))

/-- The operation stands behind a waiting transfer of its group: the array goes on with those of other groups. -/
def State.behindStuck (s : State) (g : Group) (o : Op) : Bool :=
  g.ops.any fun x => decide (x.seq ≤ o.seq) && s.transferStuck g x

/-- The operation may be performed: after the earlier ones on its tiles (R248), the earlier matrix operations of its
group (R252), and the earlier ones of its arrays (R233). -/
def State.tileTurn (s : State) (g : Group) (o : Op) : Bool :=
  s.groups.all fun x => x.ops.all fun y =>
    !(decide (y.seq < o.seq) &&
      ((tileSets x y).any (fun a => (tileSets g o).any (tilesMeet a)) ||
       (x.uid == g.uid && y.work.isMatrix && o.work.isMatrix) ||
       ((arrayCores x y).any (arrayCores g o).contains && !s.behindStuck x y)))

/-! ### Issue of scalar matrix instructions -/

/-- A scalar operation on tiles is issued, with its place in tile order. -/
def State.pushTile (s : State) (g : Group) (f : FlagField) (w : Work) (wait : Option Nat) : State × Act :=
  if !g.ctx.canRaise (flagOf f) [] then (s, .wait 12 g)
  else
    let (q, s1) := s.takeFresh
    (s1, .adv (g.push { work := w, flag := flagOf f, pc := g.ctx.pc, word := word s.curWord, seq := q, wait := wait }))

/-- The group with the heads of consumed operands advanced (R244). -/
def Group.advanceHead (g : Group) (k n : Nat) : Group :=
  g.setSeg k ((g.seg k).map fun x => { x with head := (x.head + n) % x.len })

/-- `mma` (R243, R244). -/
def execMma (sr fr : Reg) (f : FlagField) (s : State) : Host.Outcome State Fault Refusal :=
  issueScalarS s [sr.toNat, sr.toNat + 1, fr.toNat, fr.toNat + 1, fr.toNat + 2, fr.toNat + 3] fun s g =>
    let head := fun (x : Option Segment) => (x.map (·.head)).getD 0
    let r := fun k => g.u (fr.toNat + k)
    let d0 : MmaDesc := { w0 := r 0, w1 := r 1, w2 := r 2, w3 := r 3, s0 := g.u sr.toNat, s1 := g.u (sr.toNat + 1) }
    match s.mmaFault g d0 with
    | some (c, i) => (s, .trap c i 0)
    | none =>
      let p := if d0.wide then s.partner g else none
      let d := { d0 with
        posA := head g.segA, posB := head g.segB, posM := head g.segM, posP := head (p.bind (·.segB)), pair := p.map (·.uid) }
      let g1 := if d.consume false then (g.advanceHead 0 (d.taken false)) else g
      let g2 := if d.consume false && d.sparse then g1.advanceHead 2 d.metaTaken else g1
      let g3 := if d.consume true then g2.advanceHead 1 (d.taken true) else g2
      match s.pushTile g3 f (.mma d) none with
      | (s1, .adv g4) =>
        (if d.consume true then s1.modGroup ((p.map (·.uid)).getD g.uid) fun x => x.advanceHead 1 (d.taken true) else s1, .adv g4)
      | (s1, _) => (s1, .wait 12 g)

/-- The tiles of a descriptor word (R251): first and number, or the fault. -/
def tileRange (g : Group) (w : Nat) : (Code × Word) ⊕ (Nat × Nat) :=
  let first := bits w 9 0
  let n := bits w 19 10 + 1
  if bits w 31 20 ≠ 0 then .inl (.reservedField, 0)
  else if g.window < first + n then .inl (.registerRange, word (max first g.window))
  else .inr (first, n)

/-- `mzero` (R251). -/
def execMzero (a : Reg) (f : FlagField) (s : State) : Host.Outcome State Fault Refusal :=
  issueScalarS s [a.toNat] fun s g =>
    match tileRange g (g.u a.toNat).toNat with
    | .inl (c, i) => (s, .trap c i 0)
    | .inr (first, n) => s.pushTile g f (.mzero first n) none

/-! ### Transfers -/

/-- The whole range of a transfer is checked as one scalar access (R57, R252). The address reported of one that leaves the address
space is the model's choice (log 128). -/
def State.checkRange (s : State) (g : Group) (k : AccKind) (va n : Nat) : Checked :=
  if va % 64 != 0 || (winBase + 0xA000000000 ≤ va && va < winBase + 0xA000000000 + 2 ^ 16) then .trap .misaligned va
  else
    checkPieces va ((splitRuns (n / 64 + 1) va n).map fun r =>
      if r.1 < 2 ^ 48 then s.piece g k r.1 r.2 else { fault := some .accessViolation, va := r.1, n := r.2 })

/-- An access that waits for the token if its page is shared-deterministic, in a strict grid, and the group lacks the token (R38,
R252). -/
def State.transferAcc (s : State) (g : Group) (k : AccKind) (a : Acc) (sd : Bool) : Acc :=
  { a with held := sd && k == .write && (s.gridOf g).strict && !s.holdsToken g }

/-- A transfer is issued (R252): its range is checked; an absent page holds the operation. -/
def issueTransfer (a b : Reg) (f : FlagField) (k : AccKind) (mk : Nat → Nat → Acc → Work) (s : State) :
    Host.Outcome State Fault Refusal :=
  issueScalarS s [a.toNat, a.toNat + 1, b.toNat] fun s g =>
    match tileRange g (g.u b.toNat).toNat with
    | .inl (c, i) => (s, .trap c i 0)
    | .inr (first, n) =>
      let va := (g.u64 a.toNat).toNat
      if 2 ^ 48 ≤ va then (s, .trap .accessViolation 0 (va % 2 ^ 48))
      else
        match s.checkRange g k va (1024 * n) with
        | .trap c v => (s, .trap c 0 v)
        | .miss v _ => (s.walkFor g (s.asker g 3 k.num g.ctx.pc 0 v), .wait 12 g)
        | .absent v =>
          if (s.gridOf g).aborts then ((s.joinPage g (v / 4096)).abortBlock (s.blockOf g) (v / 4096), .stop)
          else
            (s.joinPage g (v / 4096)).pushTile g f (mk first n { va := va }) (some (v / 4096))
        | .ok x sd =>
          let x := s.transferAcc g k x sd
          if x.held && 4 ≤ g.heldCount then (s, .wait 12 g)
          else (s.useAcc g x).pushTile g f (mk first n x) none

/-- `mtld` (R251, R252). -/
def execMtld (a b : Reg) (f : FlagField) (s : State) : Host.Outcome State Fault Refusal :=
  issueTransfer a b f .read (fun t n x => .mtld t n x) s
/-- `mtst`. -/
def execMtst (a b : Reg) (f : FlagField) (s : State) : Host.Outcome State Fault Refusal :=
  issueTransfer a b f .write (fun t n x => .mtst t n x) s

/-- The words that bytes give tiles. -/
def tileWords (first : Nat) (bs : List Byte) : List (Nat × Word) :=
  (List.range (bs.length / 4)).map fun i => (256 * first + i, word (leNat ((bs.drop (4 * i)).take 4)))

/-- Tiles of a group hold an uncorrectable word (R250). -/
def State.tilesBad (s : State) (g : Group) (level first n : Nat) : Bool :=
  level == 0 && s.poisoned .tile (groupKey g.uid (1024 * first)) (1024 * n)

/-- Tiles have been written whole. -/
def State.healTiles (s : State) (u level first n : Nat) : State :=
  if level = 0 then s.heal .tile (groupKey u (1024 * first)) (1024 * n) else s

/-- A matrix operation meets a deferred fault (R250). -/
def matrixFault (o : Op) (c : Code) (info : Word) (va : Nat) : Deferred :=
  { op := o.id, flag := o.flag, paths := o.shownPaths, level := o.level, matrix := true
    trap := { code := c, delivery := .deferred, lane := o.lane, slot := o.slot, laneIndex := o.laneIndex, pc := o.pc
              mask := o.mask, info := info, address := va, word := o.word, op := some o.id } }

/-- An operation retires, with or without a fault. -/
def State.retireOp (s : State) (u : Nat) (o : Op) (d : Option Deferred) : State :=
  s.modGroup u fun g => let g := g.retire o; { g with deferred := g.deferred ++ d.toList }

/-- A transfer whose bytes are known is performed (R252). -/
def State.transfer (s : State) (g : Group) (o : Op) (k : MemKind) (first n : Nat) (a : Acc) : State :=
  if k == .store && s.tilesBad g o.level first n then s.retireOp g.uid o (some (matrixFault o .uncorrectable 0 a.va))
  else
    let a := { a with data := if k == .store then g.tileData o.level first n else [] }
    let r : Performed := if a.fault.isSome then { s := s, fault := a.fault } else (if a.peer then s.linkQuiet else s).performAt g k a
    match r.fault with
    | none =>
      let s1 := if k == .store then r.s
        else (r.s.modGroup g.uid fun x => x.setTiles o.level (tileWords first r.got)).healTiles g.uid o.level first n
      s1.retireOp g.uid o none
    | some c =>
      if a.peer && a.fault.isNone then
        (r.s.peerRecord g o (1 - g.die) 0x25 c.num k [a]).retireOp g.uid o
          (some (matrixFault o .remoteFault (word (1 - g.die)) a.va))
      else r.s.retireOp g.uid o (some (matrixFault o c (if c = .remoteTimeout then word (1 - g.die) else 0) a.va))

/-- A transfer that has waited for a page finds its bytes again. -/
def State.findTransfer (s : State) (g : Group) (o : Op) (k : AccKind) (a : Acc) (n : Nat) (mk : Acc → Work) : State :=
  match s.checkRange (g.reader o) k a.va (1024 * n) with
  | .trap c v => s.retireOp g.uid o (some (matrixFault o c 0 v))
  | .miss v _ => s.walkFor g { s.asker g 3 k.num o.pc 0 v with oper := some o.id }
  | .absent v =>
    if (s.gridOf g).aborts then (s.joinPage g (v / 4096)).abortBlock (s.blockOf g) (v / 4096)
    else (s.joinPage g (v / 4096)).modGroup g.uid fun x => x.opWaits o.id (v / 4096)
  | .ok x sd => (s.useAcc g x).modGroup g.uid fun y => y.setOp { o with work := mk (s.transferAcc g k x sd) }

/-! ### Completion of `mma` -/

/-- An uncorrectable byte among those that an operand reads from its segment. -/
def State.streamBad (s : State) (u k : Nat) (x : Segment) (w h o d count : Nat) : Bool :=
  (s.poison.any fun p => p.1 == .stream && p.2 / 2 ^ 17 == 8 * u + k) &&
    (List.range count).any fun n =>
      s.poisoned .stream (groupKey u (2 ^ 17 * k + streamIndex x.len w h o d n * w / 8)) (max 1 (w / 8))

/-- The operands of an `mma` for the core of group `y`, with A from group `g`. -/
def State.mmaIn (s : State) (g y : Group) (d : MmaDesc) : MmaIn :=
  { d := d, a := g.segA.getD {}, b := y.segB.getD {}, m := g.segM.getD {}, hB := if y.uid = g.uid then d.posB else d.posP
    aShare := fun o n => leNat (s.ownBytes g o n), bShare := fun o n => leNat (s.ownBytes y o n) }

/-- An operand, a scale or an accumulated tile of an `mma` reads as uncorrectable (R250). -/
def State.mmaBad (s : State) (g y : Group) (o : Op) (d : MmaDesc) : Bool :=
  let x := s.mmaIn g y d
  !s.poison.isEmpty &&
    (s.streamBad g.uid 0 x.a (codeBits (d.code false)) d.posA (d.off false) (d.stride false) (d.elements false) ||
     s.streamBad y.uid 1 x.b (codeBits (d.code true)) x.hB (d.off true) (d.stride true) (d.elements true) ||
     (d.sparse && s.streamBad g.uid 2 x.m 4 d.posM 0 1 (4 * d.steps * d.m)) ||
     (d.scales false).any (fun r => s.ownBad g r.1 r.2) || (d.scales true).any (fun r => s.ownBad y r.1 r.2) ||
     (!d.fresh && s.tilesBad y (if y.uid = g.uid then o.level else 0) d.base d.count))

/-- The half of an `mma` that writes the tiles of a group. -/
def State.mmaHalf (s : State) (g y : Group) (o : Op) (d : MmaDesc) (bad : Bool) : State :=
  let level := if y.uid = g.uid then o.level else 0
  let ws := if bad then d.spoiled else (s.mmaIn g y d).result (y.tiles level)
  (s.modGroup y.uid fun x => x.setTiles level ws).healTiles y.uid level d.base d.count

/-- An `mma` is performed (R244, R245, R250). In a pair an uncorrectable read for one half spoils the tiles of both: a choice of the
model (log 133). -/
def State.performMma (s : State) (g : Group) (o : Op) (d : MmaDesc) : State :=
  let p := d.pair.bind s.group?
  let bad := s.mmaBad g g o d || (match p with | some y => s.mmaBad g y o d | none => false)
  let s1 := s.mmaHalf g g o d bad
  let s2 := match p with
    | some y => s1.mmaHalf g y o d bad
    | none => s1
  s2.retireOp g.uid o (if bad then some (matrixFault o .uncorrectable 0 0) else none)

/-- MMA_COMPLETE: an `mma` whose turn it is is performed as one step, and its flag falls (R113, R244, R248). -/
def execMmaComplete (u op : Nat) (s : State) : Host.Outcome State Fault Refusal :=
  match s.group? u with
  | none => .next s
  | some g =>
    match g.op? op with
    | none => .next s
    | some o =>
      match o.work with
      | .mma d => if s.tileTurn g o then .next (s.performMma g o d) else .next s
      | _ => .next s

/-! ### Tiles and vector registers -/

/-- The tile that a lane instruction names (R253): the immediate, or a uniform register. A number of more than 10 bits has taken
RESERVED_FIELD, one outside the window REGISTER_RANGE (`State.barred`). -/
def LaneIn.tile (x : LaneIn) : Nat := (lane x.b.lo 0).toNat

/-- A long-latency operation of a path on a tile or a stream is issued, with its place in tile order. -/
def LaneIn.pushTile (x : LaneIn) (w : Work) (f : Group → Group) : State × LAct :=
  if !x.g.ctx.canRaise x.flag [] then (x.s, .wait 12)
  else
    let (q, s1) := x.s.takeFresh
    (s1, .go (f (x.g.push
      { work := w, flag := x.flag, lane := true, slot := pathIndex x.p x.slot, pc := x.g0.ctx.pc, laneIndex := x.p.pc
        word := Sys2Proof.word (x.word / 2 ^ 64), mask := x.ex, full := x.word, seq := q })))

/-- `vaccr` (R253). -/
def execVaccr (l : LaneOp) (s : State) : Host.Outcome State Fault Refusal :=
  issueLaneS s (.vaccr l) fun x =>
    x.pushTile (.vaccr x.tile l.vd.toNat x.ex) id
/-- `vaccw`: its registers are read at issue. -/
def execVaccw (l : LaneOp) (s : State) : Host.Outcome State Fault Refusal :=
  issueLaneS s (.vaccw l) fun x =>
    x.pushTile (.vaccw x.tile x.ex ((upFrom l.va.toNat 8).map x.g.vread)) id

/-- The key of the tile element that lane `l` of register `r` of eight holds (R253). -/
def laneTileKey (t r l : Nat) : Nat := 256 * t + 16 * (2 * r + l / 16) + l % 16

/-- The registers that a `vaccr` writes. -/
def Group.landTile (g : Group) (level t reg : Nat) (mask : Word) : Group :=
  (List.range 8).foldl (fun g r => (lanesOf mask).foldl (fun g l =>
    g.landV level (reg + r) l (Cells.get 0 (g.tiles level) (laneTileKey t r l))) g) g

/-- The tile words that a `vaccw` writes. -/
def storeTile (t : Nat) (mask : Word) (vals : List Lanes) : List (Nat × Word) :=
  (List.range 8).flatMap fun r => (lanesOf mask).map fun l => (laneTileKey t r l, lane (vals.getD r []) l)

/-- A transfer has no answer of the other stack: no link is up, or the answer is lost (R345, R408). -/
def State.transferAway (s : State) (o : Op) : Bool :=
  match o.work with
  | .mtld _ _ a => a.peer && a.fault.isNone && (a.lost || !s.linkUp)
  | .mtst _ _ a => a.peer && a.fault.isNone && (a.lost || !s.linkUp)
  | _ => false

/-- MATRIX_TRANSFER_COMPLETE: an `mzero`, `mtld`, `mtst`, `vaccr` or `vaccw` whose turn it is is performed as one step, and
its flag falls (R248, R251 to R253). A `vaccr` of a tile that reads as uncorrectable writes no register and owes UNCORRECTABLE: a choice
of the model (log 134). -/
def execMatrixTransferComplete (u op : Nat) (s : State) : Host.Outcome State Fault Refusal :=
  match s.group? u with
  | none => .next s
  | some g =>
    match g.op? op with
    | none => .next s
    | some o =>
      if !s.tileTurn g o || s.transferStuck g o || s.transferAway o then .next s
      else
        match o.work with
        | .mzero first n =>
          let g' := g.setTiles o.level ((upFrom (256 * first) (256 * n)).map fun k => (k, 0))
          .next (((s.setGroup g').healTiles u o.level first n).retireOp u o none)
        | .mtld first n a =>
          if a.locs.isEmpty && a.fault.isNone then .next (s.findTransfer g o .read a n fun x => .mtld first n x)
          else .next (s.transfer g o (.load 4 false) first n a)
        | .mtst first n a =>
          if a.locs.isEmpty && a.fault.isNone then .next (s.findTransfer g o .write a n fun x => .mtst first n x)
          else .next (s.transfer g o .store first n a)
        | .vaccr t reg mask =>
          if s.tilesBad g o.level t 1 then .next (s.retireOp u o (some (matrixFault o .uncorrectable 0 0)))
          else .next ((s.setGroup (g.landTile o.level t reg mask)).retireOp u o none)
        | .vaccw t mask vals =>
          let s1 := s.setGroup (g.setTiles o.level (storeTile t mask vals))
          .next ((if mask = BitVec.allOnes 32 then s1.healTiles u o.level t 1 else s1).retireOp u o none)
        | _ => .next s

/-! ### `mwait` and segments -/

/-- An instruction that waits as `mwait` (R249, R250), and delivers deferred faults (R156). -/
def State.asMwait (s : State) (g : Group) (k : State × Act) : State × Act :=
  if !g.matrixDone then (s, .wait 10 g)
  else
    match g.due fun _ => true with
    | some d => (s, .deliver d)
    | none => k

/-- `mwait` (R249). -/
def execMwait (s : State) : Host.Outcome State Fault Refusal := issueScalarS s [] fun s g => s.asMwait g (s, .adv g)

/-- A free run of positions of a stream of the group's core (R238). -/
def State.segmentFit (s : State) (g : Group) (k n : Nat) : Option Nat :=
  let used := (s.groups.filter fun x => x.die == g.die && x.core == g.core && x.uid != g.uid).filterMap fun x =>
    (x.seg k).map fun y => (y.base, y.len)
  fitBytes used 1 0 (Config.streamPositions k) n

/-- `mfifo.claim` (R238). A length out of range faults before the wait as `mwait`, a choice of the model (log 115). -/
def execMfifoClaim (a b : Reg) (k : BitVec 2) (s : State) : Host.Outcome State Fault Refusal :=
  issueScalarS s [] fun s g =>
    kernelOnly g [a.toNat, b.toNat] (reads := [b.toNat]) s <|
      let n := (g.u b.toNat).toNat
      if n = 0 || Config.streamPositions k.toNat < n then (s, .fault .reservedField)
      else
        s.asMwait g <|
          match s.segmentFit g k.toNat n with
          | some base => (s.heal .stream (groupKey g.uid (2 ^ 17 * k.toNat)) (32 * n),
              .adv ((g.setSeg k.toNat (some { base := base, len := n })).setU a.toNat 0))
          | none => (s, .adv ((g.setSeg k.toNat none).setU a.toNat (BitVec.allOnes 32)))
/-- `mfifo.release`. -/
def execMfifoRelease (k : BitVec 2) (s : State) : Host.Outcome State Fault Refusal :=
  issueScalarS s [] fun s g => kernelOnly g [] s <| s.asMwait g (s, .adv (g.setSeg k.toNat none))
/-- `mfifo.head`. -/
def execMfifoHead (a : Reg) (k : BitVec 2) (s : State) : Host.Outcome State Fault Refusal :=
  issueScalar s [a.toNat] (reads := []) fun _ g =>
    .adv (g.setU a.toNat (match g.seg k.toNat with | some x => word x.head | none => BitVec.allOnes 32))
/-- `mfifo.sethead` (R238). A stream without a segment faults before the wait as `mwait`, a choice of the model (log 115). -/
def execMfifoSethead (a : Reg) (k : BitVec 2) (s : State) : Host.Outcome State Fault Refusal :=
  issueScalarS s [] fun s g =>
    kernelOnly g [a.toNat] s <|
      match g.seg k.toNat with
      | none => (s, .fault .matrixCombination)
      | some x => s.asMwait g (s, .adv (g.setSeg k.toNat (some { x with head := (g.u a.toNat).toNat % x.len })))

/-! ### `vfeed` -/

/-- `vfeed` (R254, R255): not in a handler (R259). -/
def execVfeed (l : LaneOp) (s : State) : Host.Outcome State Fault Refusal :=
  issueLaneS s (.vfeed l) fun x =>
    let k := l.vc.toNat % 4
    let n := l.vc.toNat / 4 % 8 + 1
    if x.g0.inHandler then (x.s, x.fault .accessViolation)
    else if (x.g0.seg k).isNone then (x.s, x.fault .matrixCombination)
    else
      let strict := (x.s.gridOf x.g0).strict || bitAt l.vc.toNat 5
      x.pushTile (.vfeed k ((lane x.b.lo 0).toNat % 65536) l.va.toNat n x.ex strict) fun g =>
        { g with feeds := g.feeds ++
            [{ op := x.g.nextOp, reg := l.va.toNat, n := n, flag := x.flag.getD 0, strict := strict, past := x.act }] }

/-- The bytes of vector registers in a segment: register `r` at positions p + 4r to p + 4r + 3, lane `l` at byte 4·l. -/
def Segment.feed (x : Segment) (p n : Nat) (mask : Word) (v : Nat → Nat → Word) : Segment :=
  (List.range n).foldl (fun x r => (lanesOf mask).foldl (fun x l =>
    x.fill (32 * ((p + 4 * r + l / 8) % x.len) + 4 * (l % 8)) (leBytes 4 (v r l).toNat)) x) x

/-- VFEED_COMPLETE: the sources are read, the bytes written to the segment that the group then holds, and the flag falls
(R238, R254, R255). -/
def execVfeedComplete (u op : Nat) (s : State) : Host.Outcome State Fault Refusal :=
  match s.group? u with
  | none => .next s
  | some g =>
    match g.op? op with
    | none => .next s
    | some o =>
      match o.work with
      | .vfeed k p reg n mask _ =>
        let x := (g.seg k).map fun x => x.feed p n mask fun r l => Cells.get 0 g.vreg (Group.vbase32 (reg + r) l)
        let s1 := s.setGroup (g.setSeg k x)
        let len := ((g.seg k).map (·.len)).getD 1
        let s2 := if mask = BitVec.allOnes 32 then (List.range (4 * n)).foldl (fun (t : State) i =>
          t.heal .stream (groupKey u (2 ^ 17 * k + 32 * ((p + i) % len))) 32) s1 else s1
        .next (s2.retireOp u o none)
      | _ => .next s

/-! ### The requantising transposer -/

/-- Columns and rows of the source of an `mqt`, and its format code (R256). -/
def mqtDims (r0 : Nat) : Nat × Nat × Nat := (32 * (bits r0 29 27 + 1), 32 * (bits r0 26 24 + 1), bits r0 23 21)

/-- The element type of an `mqt`. -/
def mqtTy (c : Nat) : Ty := if c = 2 then .e4m3x4 else if c = 3 then .e5m2x4 else .e2m1x8

/-- The four ranges of an `mqt` in the share: source, its scales, destination, its scales. -/
def mqtRanges (r0 r1 r2 r3 : Nat) : List (Nat × Nat) :=
  let (c, r, f) := mqtDims r0
  let n := c * r * codeBits f / 8
  [(bits r0 20 0, n), (bits r1 20 0, r * (c / 32)), (bits r2 20 0, n), (bits r3 20 0, c * (r / 32))]

/-- The precise faults of `mqt` (R256): its fields, then ranges outside the share, then ranges that overlap, an order that the model
chooses (log 117). -/
def State.mqtFault (s : State) (g : Group) (r0 r1 r2 r3 : Nat) : Option Code :=
  let f := (mqtDims r0).2.2
  let rs := mqtRanges r0 r1 r2 r3
  if bits r0 31 30 != 0 || [r1, r2, r3].any (fun r => bits r 31 21 != 0) || !(f == 2 || f == 3 || f == 4) then
    some .matrixCombination
  else if scalesOut rs (s.ownShare g).2 then some .sliceUnmapped
  else if (rs.drop 2).any fun d => (rs.take 2).any (overlaps d) then some .matrixCombination
  else none

/-- `mqt` (R256). -/
def execMqt (a : Reg) (f : FlagField) (s : State) : Host.Outcome State Fault Refusal :=
  issueScalarS s (upFrom a.toNat 4) fun s g =>
    let r := fun k => g.u (a.toNat + k)
    match s.mqtFault g (r 0).toNat (r 1).toNat (r 2).toNat (r 3).toNat with
    | some c => (s, .fault c)
    | none => s.pushTile g f (.mqt (r 0) (r 1) (r 2) (r 3)) none

/-- The bytes of packed elements of width `w`. -/
def packElems (w : Nat) (es : List Nat) : List Byte :=
  if w = 8 then es.map (BitVec.ofNat 8)
  else (List.range (es.length / 2)).map fun i => BitVec.ofNat 8 (es.getD (2 * i) 0 + 16 * es.getD (2 * i + 1) 0)

/-- The scaled source element of an `mqt` (R257): NaN where its scale is 0xFF. -/
def mqtValue (f : Fmt) (x scale : Nat) : Num :=
  if scale = 255 then .nan 1 else (f.num x).shift ((scale : Int) - 127)

/-- The largest magnitude of numbers, or NaN (R196). -/
def maxMagnitude (vs : List Num) : Num :=
  vs.foldl (fun m v =>
    match m, v with
    | .nan c, _ => .nan c
    | _, .nan c => .nan c
    | .inf _, _ => .inf false
    | _, .inf _ => .inf false
    | .fin _ a e, .fin _ b d => if Num.scaled (min e d) (.fin false a e) < Num.scaled (min e d) (.fin false b d) then .fin false b d
                                else .fin false a e) (.fin false 0 0)

/-- The bytes that an `mqt` stores: elements and scales (R257). -/
def mqtResult (r0 : Nat) (src scale : List Byte) : List Byte × List Byte :=
  let (c, r, code) := mqtDims r0
  let t := mqtTy code
  let w := codeBits code
  let byte := fun (l : List Byte) k => (l.getD k 0).toNat
  let blocks := (List.range c).flatMap fun col => (List.range (r / 32)).map fun rb =>
    let vs := (upFrom (32 * rb) 32).map fun row =>
      mqtValue (fmtOf t) (packedElem (byte src) w (row * c + col)) (byte scale (row * (c / 32) + col / 32))
    let e := blockScale t (maxMagnitude vs)
    (e, vs.map fun v => quantise t 0 v e)
  (packElems w (blocks.flatMap (·.2)), blocks.map fun b => BitVec.ofNat 8 b.1)

/-- MQT_COMPLETE: the unit reads its source, stores the transposed and requantised elements and scales, and the flag
falls (R256 to R258). Choices of the model: where the two destinations overlap the elements are stored first (log 132), and a source
that reads as uncorrectable stores nothing (log 63). -/
def execMqtComplete (u op : Nat) (s : State) : Host.Outcome State Fault Refusal :=
  match s.group? u with
  | none => .next s
  | some g =>
    match g.op? op with
    | none => .next s
    | some o =>
      match o.work with
      | .mqt r0 r1 r2 r3 =>
        if !s.tileTurn g o then .next s
        else
          let rs := mqtRanges r0.toNat r1.toNat r2.toNat r3.toNat
          let at_ := fun i => rs.getD i (0, 0)
          if s.ownBad g (at_ 0).1 (at_ 0).2 || s.ownBad g (at_ 1).1 (at_ 1).2 then
            .next (s.retireOp u o (some (matrixFault o .uncorrectable 0 0)))
          else
            let (es, ss) := mqtResult r0.toNat (s.ownBytes g (at_ 0).1 (at_ 0).2) (s.ownBytes g (at_ 1).1 (at_ 1).2)
            let s1 := (s.writeMem .core (s.ownKey g (at_ 2).1) es).writeMem .core (s.ownKey g (at_ 3).1) ss
            .next (s1.retireOp u o none)
      | _ => .next s

end Sys2Proof.Machine
end

