-- ==== Sys2Proof/Machine/Draw.lean ====
section
/-! DEFINITION. The draw unit: the Sloe generator (R264), `dkey` (R265), token draws (R266 to R270) and draw rounds (R273 to
R277). -/
namespace Sys2Proof.Machine

/-! ### Sloe -/

/-- The four words of Sloe's state. -/
structure Quad where
  x0 : Word
  x1 : Word
  x2 : Word
  x3 : Word
  deriving DecidableEq, Repr, Inhabited

/-- The rotations of a round. -/
def sloeRot (i : Nat) : Nat × Nat :=
  match i % 4 with
  | 0 => (16, 12)
  | 1 => (8, 7)
  | 2 => (13, 19)
  | _ => (5, 27)

/-- One round of Sloe (R264). -/
def sloeRound (k : Nat → Word) (x : Quad) (i : Nat) : Quad :=
  let r := sloeRot i
  let a := x.x0 + x.x1
  let d := (x.x3 ^^^ a).rotateLeft r.1
  let c := x.x2 + d
  let b := (x.x1 ^^^ c).rotateLeft r.2
  { x0 := a ^^^ (k (i % 3) + word (i * 0x9E3779B9)), x1 := b, x2 := c, x3 := d }

/-- Sloe: a key of three words and a counter of four (R264). -/
def sloe (k : List Word) (c : Quad) : Quad :=
  let y := (List.range 12).foldl (sloeRound fun i => k.getD i 0) c
  { x0 := y.x0 + c.x0, x1 := y.x1 + c.x1, x2 := y.x2 + c.x2, x3 := y.x3 + c.x3 }

/-- The 64-bit word of a draw. -/
def Quad.draw (y : Quad) : Nat := y.x0.toNat + 2 ^ 32 * y.x1.toNat

/-- `dkey` (R265). -/
def execDkey (a b : Reg) (s : State) : Host.Outcome State Fault Refusal :=
  issueScalar s [a.toNat, a.toNat + 1, b.toNat] fun _ g =>
    .adv { g with k0 := g.u a.toNat, k1 := g.u (a.toNat + 1), k2 := g.u b.toNat }

/-! ### Descriptors -/

/-- A descriptor in the own share: ACCESS_VIOLATION comes before MISALIGNED (R268, R275, R292). -/
def State.ownDesc (s : State) (g : Group) (va align n : Nat) : Code ⊕ Nat :=
  match s.ownRange g va 1 n with
  | .inl c => .inl c
  | .inr off => if va % align ≠ 0 then .inl .misaligned else .inr off

/-- A draw command is issued with its place in issue order, where a place among the held ones, its flag and the local path allow it
(R78, R270, R320). -/
def State.pushDraw (s : State) (g : Group) (f : FlagField) (off n : Nat) (va : Nat) (mk : List Byte → Work)
    (check : List Byte → Option (Code × Nat)) : State × Act :=
  if g.localBusy then (s, .wait 12 g)
  else if s.ownBad g off n then (s, ownFault g s.curWord .uncorrectable 0 va)
  else
    let d := s.ownBytes g off n
    match check d with
    | some (c, v) => (s, .trap c 0 v)
    | none =>
      if 4 ≤ g.heldCount || !g.ctx.canRaise (flagOf f) [] then (s, .wait 12 g)
      else
        let (q, s1) := s.takeFresh
        (s1, .adv (g.push { work := mk d, flag := flagOf f, pc := g.ctx.pc, word := word s.curWord, seq := q }))

/-- The key of a group's draws (R265). -/
def Group.key (g : Group) : List Word := [g.k0, g.k1, g.k2]

/-! ### Token draws -/

/-- What a token draw's descriptor breaks (R267, R268). -/
def ddrawFault (n : Nat) (b : List Byte) : Option (Code × Nat) :=
  let d := leNat b
  let t := bits d 127 96
  let logits := bits d 47 0
  if bits d 62 48 != 0 || n == 0 || decide (1048576 < n) || decide (65536 < bits d 79 63) || decide (0x7F800000 ≤ t % 2 ^ 31) ||
      (bitAt t 31 && t % 2 ^ 31 != 0) then some (.reservedField, 0)
  else if logits % 4 ≠ 0 then some (.misaligned, logits)
  else none

/-- `ddraw` (R266, R268). -/
def execDdraw (a d n : Reg) (f : FlagField) (s : State) : Host.Outcome State Fault Refusal :=
  issueScalarS s [] fun s g =>
    kernelOnly g [a.toNat, a.toNat + 1, d.toNat, n.toNat] (reads := [a.toNat, n.toNat]) s <|
      let va := (g.u64 a.toNat).toNat
      let cnt := (g.u n.toNat).toNat
      match s.ownDesc g va 32 32 with
      | .inl c => (s, .trap c 0 (va % 2 ^ 48))
      | .inr off => s.pushDraw g f off 32 va (fun b => .ddraw d.toNat cnt b g.key) (ddrawFault cnt)

/-- log₂(e) times a number, rounded to FP32 to nearest even (R269). The product is irrational unless it is 0. -/
def timesLog2e (x : Num) : Nat :=
  match x with
  | .fin s m e => if m = 0 then fp32.sign s else fp32.round 0 s (m * (oneP * oneP / ln2P)) (e - bitsP) true
  | .inf s => fp32.infBits s
  | .nan c => fp32.nan c

/-- ⌊2^31 · 2^t⌋ for −31 ≤ t ≤ 0, else 0 (R269). -/
def tokenWeight (t : Nat) : Nat :=
  match fp32.num t with
  | .fin s m e =>
    if m = 0 then 2 ^ 31
    else if !s then 2 ^ 31
    else
      let x : Int := -(fixP m e : Int)
      if x < -31 * (oneP : Int) then 0
      else
        let n := (x / oneP + 31).toNat
        let y := (x % oneP).toNat
        if y = 0 then 2 ^ n else expP (mulP y ln2P) * 2 ^ n / oneP
  | _ => 0

/-- The weight of a logit, below the greatest one (R269). -/
def logitWeight (top : Num) (invT l : Nat) : Nat :=
  let z := fp32.pack 0 (Num.mul (Num.add false (fp32.num l) top.negate) (fp32.num invT))
  tokenWeight (timesLog2e (fp32.num z))

/-- The weights of logits (R269); none where no logit counts. -/
def tokenWeights (invT : Nat) (ls : List Nat) : Option (List Nat) :=
  let ninf := fp32.infBits true
  let inC := fun l => !(fp32.isNan l) && l != ninf
  match ls.filter inC with
  | [] => none
  | c :: cs =>
    if (c :: cs).contains (fp32.infBits false) then
      some (ls.map fun l => if l = fp32.infBits false then 2 ^ 31 else 0)
    else
      let top := cs.foldl (fun m l => if fp32.value m < fp32.value l then l else m) c
      some (ls.map fun l => if inC l then logitWeight (fp32.num top) invT l else 0)

/-- The least prefix whose weight reaches the mass that is kept. -/
def massPrefix (need : Nat) : Nat → List (Nat × Nat) → List (Nat × Nat)
  | _, [] => []
  | sum, x :: t => if need ≤ (sum + x.2) * 2 ^ 16 then [x] else x :: massPrefix need (sum + x.2) t

/-- The first of listed items whose running sum exceeds a target. -/
def pickRunning (target : Nat) : Nat → List (Nat × Nat) → Nat
  | _, [] => 0
  | sum, x :: t => if target < sum + x.2 then x.1 else pickRunning target (sum + x.2) t

/-- The sum of the weights of items. -/
def weightSum (l : List (Nat × Nat)) : Nat := l.foldl (fun t x => t + x.2) 0

/-- The token that a draw gives (R269). -/
def drawToken (desc : List Byte) (key : List Word) (ls : List Nat) : Word :=
  let d := leNat desc
  match tokenWeights (bits d 127 96) ls with
  | none => BitVec.allOnes 32
  | some ws =>
    let k0 := ((List.range ws.length).zip ws).filter fun x => x.2 != 0
    let sorted := sortRank (fun (x : Nat × Nat) => [2 ^ 31 - x.2, x.1]) k0
    let topK := bits d 95 80
    let k1 := if topK = 0 then sorted else sorted.take topK
    let k2 := massPrefix (bits d 79 63 * weightSum k1) 0 k1
    let y := sloe key { x0 := word (bits d 159 128), x1 := word (bits d 191 160), x2 := word (bits d 223 192), x3 := word (bits d 255 224) }
    let target := y.draw * weightSum k2 / 2 ^ 64
    word (pickRunning target 0 (sortRank (fun (x : Nat × Nat) => [x.1]) k2))

/-- The draw unit as an agent: it translates as the request engine of the core does (R335). -/
def drawUnit (g : Group) : Unit_ := { cls := .request, unit := g.core, agent := 5 }

/-- A deferred fault of a unit's access for an operation (R156, R217). -/
def unitFault (o : Op) (c : Code) (info mask : Word) (va : Nat) : Deferred :=
  { op := o.id, flag := o.flag, paths := o.shownPaths, level := o.level
    trap := { code := c, delivery := .deferred, lane := o.lane, slot := o.slot, laneIndex := o.laneIndex, pc := o.pc
              mask := mask, info := info, address := va, word := o.word, op := some o.id } }

/-- The PC of a unit's access, for records and traps (R341). -/
def Op.pcWord (o : Op) : Word := if o.lane then Sys2Proof.word o.laneIndex else o.pc

/-- A record of a unit's access to the other stack (R341, R345). -/
def State.unitRecord (s : State) (g : Group) (u : Unit_) (o : Op) (die code info : Nat) (write : Bool) (mask : Word) (va : Nat) :
    State :=
  s.record die (s.partOf g) code
    { agent := u.agent, op := write.toNat, core := g.core, index := g.index, pc := o.pcWord, mask := mask, va := va } info

/-- The record of a unit's access that is refused at the other stack (R345). -/
def State.unitRemote (s : State) (g : Group) (u : Unit_) (o : Op) (c : Code) (write : Bool) (mask : Word) (va : Nat) : State :=
  s.unitRecord g u o (1 - g.die) 0x25 c.num write mask va

/-- An operation whose unit did not get its bytes: it waits for a translation or a page, or for an answer while there is time, or
retires with a deferred fault. -/
def State.unitStop {α : Type} (s : State) (g : Group) (u : Unit_) (o : Op) (write : Bool) (mask : Word) (e : Eng α) : State :=
  match e with
  | .ok _ _ => s
  | .miss va => s.engMiss g u write.toNat va none (some o.id) o.pcWord mask
  | .absent va => s.engAbsent g u write.toNat va none (some o.id) o.pcWord mask
  | .fault c va => s.retireOp g.uid o (some (unitFault o c 0 mask va))
  | .remote c va =>
    (s.unitRemote g u o c write mask va).retireOp g.uid o (some (unitFault o .remoteFault (word (1 - g.die)) mask va))
  | .away va =>
    if s.expired g.die o.since then
      (s.unitRecord g u o g.die 0x26 0 write mask va).retireOp g.uid o
        (some (unitFault o .remoteTimeout (word (1 - g.die)) mask va))
    else s.modGroup g.uid fun x => x.setOp { o with since := some (o.since.getD s.clk) }

/-- Bytes that the draw unit reads (R79, R335). -/
def State.drawRead (s : State) (g : Group) (o : Op) (va n : Nat) : Eng (List Byte) :=
  (s.seenBy o).engBytes (g.reader o) (drawUnit g).cls (drawUnit g).unit va n

/-- No token draw of the stack was issued earlier and is not yet done: one that waits for its translation holds those behind it
(R270). -/
def State.drawTurn (s : State) (g : Group) (o : Op) : Bool :=
  s.groups.all fun x => x.die != g.die || x.ops.all fun y => !(y.work.isTokenDraw && decide (y.seq < o.seq))

/-- DDRAW_COMPLETE: the logits are read, the token is drawn, gD is written and the flag falls (R269, R270). -/
def execDdrawComplete (u op : Nat) (s : State) : Host.Outcome State Fault Refusal :=
  match s.group? u with
  | none => .next s
  | some g =>
    match g.op? op with
    | none => .next s
    | some o =>
      match o.work with
      | .ddraw dst n desc key =>
        if o.wait.isSome || !s.drawTurn g o then .next s
        else
          match s.drawRead g o (bits (leNat desc) 47 0) (4 * n) with
          | .ok bs used =>
            let ls := (List.range n).map fun i => leNat ((bs.drop (4 * i)).take 4)
            .next ((s.engCrossed g (drawUnit g) used).setGroup ((g.landU o.level dst (drawToken desc key ls)).retire o))
          | e => .next (s.unitStop g (drawUnit g) o false 0 e)
      | _ => .next s

/-! ### Draw rounds -/

/-- The fields of a round descriptor (R274). -/
structure Round where
  map   : Nat
  w     : Nat
  h     : Nat
  n     : Nat
  pos   : Word
  c0    : Word
  c1    : Word
  start : Nat
  len   : Nat
  centre : Bool
  packet : Nat

/-- The round of a descriptor. -/
def roundOf (b : List Byte) : Round :=
  let d := leNat b
  { map := bits d 47 0, w := bits d 55 48 + 1, h := bits d 63 56 + 1, n := bits d 95 64, pos := word (bits d 127 96)
    c0 := word (bits d 159 128), c1 := word (bits d 191 160), start := bits d 255 192, len := bits d 287 256
    centre := bitAt d 288, packet := bits d 367 320 }

/-- What a round descriptor breaks (R275). -/
def State.dposFault (s : State) (g : Group) (b : List Byte) : Option (Code × Nat) :=
  let d := leNat b
  let r := roundOf b
  if bits d 511 368 != 0 || bits d 319 289 != 0 || decide (160 < r.w) || decide (160 < r.h) || decide (65536 < r.n) then
    some (.reservedField, 0)
  else
    match s.ownRange g r.packet 1 64 with
    | .inl c => some (c, r.packet)
    | .inr _ =>
      if r.map % 2 ≠ 0 then some (.misaligned, r.map)
      else if r.packet % 64 ≠ 0 then some (.misaligned, r.packet)
      else if 10 ≤ (s.gridOf g).depth then some (.launchDepth, 0)
      else none

/-- `dpos` (R274, R275). -/
def execDpos (a d : Reg) (f : FlagField) (s : State) : Host.Outcome State Fault Refusal :=
  issueScalarS s [] fun s g =>
    kernelOnly g [a.toNat, a.toNat + 1, d.toNat] (reads := [a.toNat]) s <|
      s.asRel g <|
        let va := (g.u64 a.toNat).toNat
        match s.ownDesc g va 64 64 with
        | .inl c => (s, .trap c 0 (va % 2 ^ 48))
        | .inr off => s.pushDraw g f off 64 va (fun b => .dpos d.toNat b g.key) (s.dposFault g)

/-- The tile whose running weight exceeds a target (R276). -/
def pickTile (ws : List Nat) (target : Nat) : Nat := pickRunning target 0 ((List.range ws.length).zip ws)

/-- The position word, the time and the tile of draw `d` (R276). -/
def drawAt (r : Round) (key : List Word) (ws : List Nat) (sum d : Nat) : Word × Word × Word :=
  let y := sloe key { x0 := r.c0, x1 := r.c1, x2 := r.pos, x3 := word d }
  let i := pickTile ws (y.draw * sum / 2 ^ 64)
  let tx := i % r.w
  let ty := i / r.w
  let t := d % 16
  let xs := if r.centre then 64 * (t % 4) + 32 else y.x2.toNat % 256
  let ys := if r.centre then 64 * (t / 4) + 32 else y.x2.toNat / 256 % 256
  let at_ := if r.centre then r.len / 2 else y.x3.toNat * r.len / 2 ^ 32
  (word (256 * tx + xs + 2 ^ 16 * (256 * ty + ys)), word (r.start + at_), word i)

/-- The registers with which the group of wave `p` starts (R277). -/
def waveRegs (r : Round) (key : List Word) (ws : List Nat) (sum p : Nat) : List Lanes × (Nat × Word) :=
  let ds := (upFrom (32 * p) 32).map fun d => if d < r.n then some (d, drawAt r key ws sum d) else none
  let col := fun (f : Nat × Word × Word × Word → Word) (e : Word) => ds.map fun x => match x with | some y => f y | none => e
  ([col (fun y => y.2.1) 0, col (fun y => y.2.2.1) 0, col (fun y => word y.1) (BitVec.allOnes 32), col (fun y => y.2.2.2) 0],
   (2, word (min 32 (r.n - 32 * p))))

/-- The probe waves of a round for blocks of `g` groups. -/
def roundWave (r : Round) (key : List Word) (ws : List Nat) (g : Nat) : Wave :=
  let p := (r.n + 31) / 32
  let regs := (List.range ((p + g - 1) / g * g)).map (waveRegs r key ws ws.sum)
  { vregs := regs.map (·.1), uregs := regs.map (·.2) }

/-- Groups of a block of the image that a packet names, one where it cannot be read: the packet is then rejected. -/
def State.packetGroups (s : State) (g : Group) (b : List Byte) : Nat :=
  match s.readImage g.die (s.partOf g) (bits (leNat b) 175 128) with
  | .ok im => max 1 (im.threads / 32)
  | _ => 1

/-- The packet with the shape of a round: blocks along x, one along y and z (R277). -/
def shapePacket (b : List Byte) (x : Nat) : List Byte := b.take 4 ++ leBytes 2 x ++ leBytes 2 1 ++ leBytes 2 1 ++ b.drop 10

/-- A round launches its child grid (R277): it waits for room in the pending pool. The child packet is read now, after the draws: a
choice of the model (log 61). -/
def State.launchRound (s : State) (g : Group) (o : Op) (dst : Nat) (r : Round) (key : List Word) (ws : List Nat) : State :=
  match s.ownRange g r.packet 64 64 with
  | .inl c => s.retireOp g.uid o (some (unitFault o c 0 0 r.packet))
  | .inr off =>
    if s.poolFull g.die (s.partOf g) then s
    else if s.ownBad g off 64 then s.retireOp g.uid o (some (unitFault o .uncorrectable 0 0 r.packet))
    else
      let b := s.ownBytes g off 64
      let p := (r.n + 31) / 32
      let n := s.packetGroups g b
      match s.launchChild g (shapePacket b ((p + n - 1) / n)) fun k => some (roundWave r key ws k) with
      | .inl (ok, s') =>
        s'.modGroup g.uid fun x => (x.landU o.level dst (if ok then word p else BitVec.allOnes 32)).retire o
      | .inr (c, v) =>
        let k := s.gridOf g
        (s.translationRecord g.die (s.partOf g) c (dispatcherAsker k.uid k.queue 0 v) 0 false).modGroup g.uid fun x =>
          x.opWaits o.id (v / 4096)

/-- DPOS_ROUND_COMPLETE: the map is read, the positions are drawn and the child grid is launched (R276, R277); a round with
nothing to draw writes 0 (R275). The map is read first, also where N is 0: a choice of the model (log 109). -/
def execDposRoundComplete (u op : Nat) (s : State) : Host.Outcome State Fault Refusal :=
  match s.group? u with
  | none => .next s
  | some g =>
    match g.op? op with
    | none => .next s
    | some o =>
      match o.work with
      | .dpos dst desc key =>
        if o.wait.isSome then .next s
        else
          let r := roundOf desc
          match s.drawRead g o r.map (2 * r.w * r.h) with
          | .ok bs used =>
            let s := s.engCrossed g (drawUnit g) used
            let ws := (List.range (r.w * r.h)).map fun i => leNat ((bs.drop (2 * i)).take 2)
            if r.n = 0 || ws.sum = 0 then .next (s.setGroup ((g.landU o.level dst 0).retire o))
            else .next (s.launchRound g o dst r key ws)
          | e => .next (s.unitStop g (drawUnit g) o false 0 e)
      | _ => .next s

end Sys2Proof.Machine
end

