-- ==== Sys2Proof/Machine/Egress.lean ====
section
/-! DEFINITION. The egress unit: `xband` (R84, R292), the read of a band, its slice, its deadline (R293, R404), and the
frames in which slices leave (R405, R406). -/
namespace Sys2Proof.Machine

/-! ### Hand-off -/

/-- The band of a descriptor (R292). -/
def bandOf (d : Nat) : Band :=
  { buffer := bits d 47 0, dest := bits d 55 48, fmt := bitAt d 56, width := bits d 75 64 + 1, band := bits d 83 76
    deadline := BitVec.ofNat 64 (bits d 191 128) }

/-- Bytes of a band buffer: 16 rows of 4-byte pixels (R291). -/
def Band.bytes (b : Band) : Nat := 64 * b.width

/-- The slot is one of the partition's, and enabled in the locked allowlist (R292, R407). -/
def State.slotOf (s : State) (part n : Nat) : Bool :=
  let c := s.regN 0 (egSlot n 0xC)
  decide (n < 64) && bitAt c 31 && bits c 3 0 == part && s.regN 0 egLock % 2 == 1

/-- What a band's descriptor breaks (R292). -/
def State.xbandFault (s : State) (part : Nat) (bs : List Byte) : Option (Code × Nat) :=
  let d := leNat bs
  let b := bandOf d
  if bits d 255 192 != 0 || bits d 127 84 != 0 || bits d 63 57 != 0 || b.width % 8 != 0 then
    some (.reservedField, 0)
  else if !s.slotOf part b.dest then some (.accessViolation, 0)
  else if winBase < b.buffer + b.bytes then some (.accessViolation, b.buffer)
  else if b.buffer % 64 ≠ 0 then some (.misaligned, b.buffer)
  else none

/-- A band is handed over: it joins the egress unit's, and the flag of its operation rises. -/
def State.handBand (s : State) (g : Group) (f : Option Nat) (d : Nat) : State × Group :=
  let (id, s1) := s.takeFresh
  let b : Band :=
    { bandOf d with
      id := id, die := g.die, part := s.partOf g, grid := (s.blockOf g).grid, group := g.uid, core := g.core
      index := g.index, op := g.nextOp, level := g.mode.level, since := s.clk }
  ({ s1 with bands := s1.bands ++ [b] },
   g.push { work := .xband id, flag := f, pc := g.ctx.pc, word := Sys2Proof.word s.curWord })

/-- `xband` (R84, R292). -/
def execXband (a : Reg) (f : FlagField) (s : State) : Host.Outcome State Fault Refusal :=
  issueScalarS s [a.toNat, a.toNat + 1] fun s g =>
    let va := (g.u64 a.toNat).toNat
    match s.ownDesc g va 32 32 with
    | .inl c => (s, .trap c 0 (va % 2 ^ 48))
    | .inr off =>
      if g.localBusy then (s, .wait 12 g)
      else if s.ownBad g off 32 then (s, ownFault g s.curWord .uncorrectable 0 va)
      else
        let bs := s.ownBytes g off 32
        match s.xbandFault (s.partOf g) bs with
        | some (c, v) => (s, .trap c 0 v)
        | none =>
          if !g.ctx.canRaise (flagOf f) [] then (s, .wait 12 g)
          else
            let (s1, g1) := s.handBand g (flagOf f) (leNat bs)
            (s1, .adv g1)

/-! ### Bands -/

/-- The band with an identity. -/
def State.band? (s : State) (k : Nat) : Option Band := s.bands.find? fun b => b.id == k
/-- The state with a band replaced. -/
def State.setBand (s : State) (b : Band) : State :=
  { s with bands := s.bands.map fun x => if x.id == b.id then b else x }

/-- The flag of the `xband` falls (R292). -/
def State.endXband (s : State) (b : Band) : State :=
  match (s.group? b.group).bind fun g => g.op? b.op with
  | some o => if o.work = .xband b.id then s.retireOp b.group o none else s
  | none => s

/-- A band is discarded: it is counted, its flag falls, and a repeat-previous indication is owed (R292, R293). -/
def State.discard (s : State) (b : Band) : State :=
  let n := egBase + 0x100 + 4 * b.dest
  ((s.setRegN 0 n (s.regN 0 n + 1)).endXband b).setBand { b with dead := true }

/-- A store of a group, in either mode, that precedes an `xband`, and has not been performed, keeps the band from being read (R84). An
`mtst` does not, which is asynchronous (R82): a choice of the model (log 130). -/
def Op.holdsBand (o : Op) (b : Band) : Bool :=
  decide (o.id < b.op) &&
    (match o.work with
     | .mem k _ _ => k.writes
     | .vrowpk _ => true
     | _ => false)

/-- The entry of the base-tier TLB of the band's column that translates an address (R335). -/
def State.bandTlb (s : State) (b : Band) (va : Nat) : Option Tlb := s.tlbs.find? fun t => t.hits b.die .base (coreCol b.core) b.part va

/-- The translation of an address of a band's buffer: one that its walk gave it, else the TLB's; none where the walk found none. -/
def State.bandLook (s : State) (b : Band) (va : Nat) : WalkResult :=
  match runOf b.leaves va, s.bandTlb b va with
  | some r, _ => .leaf r.pte.toNat r.va r.len
  | none, some t => .leaf t.pte.toNat t.va t.size
  | none, none => .bad 0x20

/-- The first page of a band's buffer that has not been translated, while no walk has failed: it misses (R336). -/
def State.bandMiss (s : State) (b : Band) : Option Nat :=
  if b.absent.isSome then none
  else (pagesOf b.buffer b.bytes).find? fun va => (runOf b.leaves va).isNone && (s.bandTlb b va).isNone

/-- The miss of a band's read enters the walker queue of its stack, joins a walk there, or waits for room (R336). -/
def State.bandWalk (s : State) (b : Band) (va : Nat) : State :=
  (s.enqueueWalk b.die b.part va
    { cls := .base, unit := coreCol b.core, agent := 8, core := b.core, index := b.index, va := va, grid := b.grid, band := some b.id }).getD s

/-- The band's bytes are read through the partition's page tables, each page by the base-tier TLB of its column or by a walk that it
asks for; a band that cannot be read is discarded and reported (R84, R293, R335, R336). -/
def State.readBand (s : State) (b : Band) : State :=
  let lost := fun (va : Nat) =>
    (s.record b.die b.part 0x24 { cls := .base, agent := 8, core := b.core, index := b.index, va := va } 0).discard b
  match s.bandMiss b with
  | some va => s.bandWalk b va
  | none =>
    match s.readVa (s.bandLook b) b.buffer b.bytes (b.bytes / 64 + 2) with
    | .ok bs =>
      let ws := (List.range (16 * b.width)).map fun i => Sys2Proof.word (leNat ((bs.drop (4 * i)).take 4))
      (((pagesOf b.buffer b.bytes).foldl (fun t p => t.touchTlb b.die .base (coreCol b.core) b.part p) s).endXband b).setBand
        { b with data := some ws }
    | .record _ va => lost va
    | .refused _ va => lost va

/-- A store of its group keeps the band from being read (R84). -/
def State.bandHeld (s : State) (b : Band) : Bool := (((s.group? b.group).map (·.ops)).getD []).any fun o => o.holdsBand b

/-- EGRESS_BAND_READ: the band is read once nothing keeps it from that (R84, R293). -/
def execEgressBandRead (k : Nat) (s : State) : Host.Outcome State Fault Refusal :=
  match s.band? k with
  | none => .next s
  | some b => if b.data.isSome || b.dead || s.bandHeld b then .next s else .next (s.readBand b)

/-- BAND_DEADLINE_EXPIRY: a slice that has not started by its deadline is discarded (R293). -/
def execBandDeadlineExpiry (k : Nat) (s : State) : Host.Outcome State Fault Refusal :=
  match s.band? k with
  | none => .next s
  | some b => if b.start.isNone && !b.dead && decide (b.deadline.toNat < s.stime) then .next (s.discard b) else .next s

/-! ### Frames -/

/-- The `n` bytes of a number, most significant first: the network order of the standards (R3). -/
def beBytes (n v : Nat) : List Byte := (leBytes n v).reverse

/-- The sum of the 16-bit network-order words of bytes, a last odd byte with a zero after it. -/
def sum16 : List Byte → Nat
  | [] => 0
  | [a] => 256 * a.toNat
  | a :: b :: t => 256 * a.toNat + b.toNat + sum16 t

/-- The Internet checksum: the complement of the one's-complement sum. -/
def checksum (bs : List Byte) : Nat :=
  let n := sum16 bs
  let n := n % 65536 + n / 65536
  let n := n % 65536 + n / 65536
  65535 - n

/-- One bit of the Ethernet frame check sequence. -/
def fcsBit (c : Nat) : Nat := if c % 2 = 1 then Nat.xor (c / 2) 0xEDB88320 else c / 2
/-- The Ethernet frame check sequence of bytes. -/
def fcs (bs : List Byte) : Nat :=
  Nat.xor 0xFFFFFFFF
    (bs.foldl (fun c b => (List.range 8).foldl (fun c _ => fcsBit c) (Nat.xor c b.toNat)) 0xFFFFFFFF)

/-- The band header (R405). -/
def bandHeader (dest : Nat) (rep : Bool) (frags band frag len stime : Nat) : List Byte :=
  leBytes 16 (dest % 64 + 2 ^ 8 * rep.toNat + 2 ^ 9 * (frags % 128) + 2 ^ 16 * (band % 256) + 2 ^ 24 * (frag % 256) +
    2 ^ 32 * (len % 2 ^ 32) + 2 ^ 64 * stime)

/-- The UDP datagram of a slot from one address to another (R406). -/
def udpOf (src dst sport dport : Nat) (pay : List Byte) : List Byte :=
  let n := 8 + pay.length
  let head := beBytes 2 sport ++ beBytes 2 dport ++ beBytes 2 n
  let c := checksum (beBytes 4 src ++ beBytes 4 dst ++ [0, 17] ++ beBytes 2 n ++ head ++ [0, 0] ++ pay)
  head ++ beBytes 2 (if c = 0 then 65535 else c) ++ pay

/-- The IPv4 header (R406): DSCP 46, don't fragment, TTL 64, protocol 17. -/
def ipHeader (src dst ident n : Nat) : List Byte :=
  let a := [0x45, 0xB8] ++ beBytes 2 (20 + n) ++ beBytes 2 ident ++ [0x40, 0, 64, 17]
  let z := beBytes 4 src ++ beBytes 4 dst
  a ++ beBytes 2 (checksum (a ++ [0, 0] ++ z)) ++ z

/-- The frame of a payload to an allowlist slot: its port, and the bytes from the destination address to the frame check
sequence, padded to the least length of a frame (R406). -/
def State.frame (s : State) (slot ident : Nat) (pay : List Byte) : Nat × List Byte :=
  let cfg := s.regN 0 (egSlot slot 0xC)
  let port := bits cfg 6 6
  let mac := egBase + 0x20 + 0x10 * port
  let src := s.regN 0 (mac + 8)
  let dst := s.regN 0 (egSlot slot 8)
  let udp := udpOf src dst (0xC000 + slot) (0xC000 + bits cfg 23 16) pay
  let f := beBytes 6 (s.regN 0 (egSlot slot 0) + 2 ^ 32 * (s.regN 0 (egSlot slot 4) % 65536)) ++
    beBytes 6 (s.regN 0 mac + 2 ^ 32 * (s.regN 0 (mac + 4) % 65536)) ++ [0x08, 0x00] ++ ipHeader src dst ident udp.length ++ udp
  let f := f ++ List.replicate (60 - f.length) 0
  (port, f ++ leBytes 4 (fcs f))

/-- A datagram leaves by the port of its slot. -/
def State.send (s : State) (slot : Nat) (pay : List Byte) : State :=
  let port := bits (s.regN 0 (egSlot slot 0xC)) 6 6
  let p := if port = 0 then s.port0 else s.port1
  let f := s.frame slot p.ident pay
  let p' : Port := { p with ident := (p.ident + 1) % 65536 }
  let s1 : State := if port = 0 then { s with port0 := p' } else { s with port1 := p' }
  { s1 with out := s1.out ++ [.frame f.1 f.2] }

/-! ### Transmission -/

/-- The order of slices for one destination: deadline, then hand-off, stack A before stack B at one clk (R293). -/
def Band.rank (b : Band) : List Nat := [b.deadline.toNat, b.since, b.die, b.id]

/-- Some other slice to the destination is under way, or, where asked, leaves first. -/
def State.mustWait (s : State) (b : Band) (order : Bool) : Bool :=
  s.bands.any fun x =>
    x.id != b.id && x.dest == b.dest && !x.dead && (x.start.isSome || (order && listLe x.rank b.rank))

/-- Fragments of a slice (R406). -/
def fragments (len : Nat) : Nat := max 1 ((len + 1407) / 1408)

/-- The picture parameter set of a band's slice (R404). -/
def State.parametersOf (s : State) (b : Band) : List Byte :=
  Config.dscParameters (if b.fmt then 8 else 10) (bits (s.regN 0 (egSlot b.dest 0xC)) 15 8 + 96) b.width

/-- The slice of a band: VESA DSC 1.2a at the bits per pixel of its slot (R404, R407). -/
def State.sliceOf (s : State) (b : Band) : List Byte :=
  Config.dscEncode (if b.fmt then 8 else 10) (bits (s.regN 0 (egSlot b.dest 0xC)) 15 8 + 96) b.width (b.data.getD [])

/-- The next fragment of a slice leaves, the first one after the picture parameter set, which goes with every slice (R404; how it
travels, log 16); with the last one the band is gone (R406). -/
def State.sendFragment (s : State) (b : Band) : State :=
  let n := fragments b.slice.length
  let h := bandHeader b.dest false (n - 1) b.band b.sent b.slice.length ((b.start.getD 0).toNat)
  let s0 : State := if b.sent = 0 then
      { s with out := s.out ++ [.parameters (bits (s.regN 0 (egSlot b.dest 0xC)) 6 6) (s.parametersOf b)] } else s
  let s1 := s0.send b.dest (h ++ (b.slice.drop (1408 * b.sent)).take 1408)
  if n ≤ b.sent + 1 then { s1 with bands := s1.bands.filter fun x => x.id != b.id }
  else s1.setBand { b with sent := b.sent + 1 }

/-- A repeat-previous indication leaves (R405). Its session time is a free value: no slice has started (log 4). -/
def State.sendRepeat (s : State) (b : Band) : State :=
  let (lo, s1) := s.takeFree
  let (hi, s2) := s1.takeFree
  let s3 := s2.send b.dest (bandHeader b.dest true 0 b.band 0 0 (dword lo hi).toNat)
  { s3 with bands := s3.bands.filter fun x => x.id != b.id }

/-- SLICE_TRANSMIT: the next datagram of a band leaves (R293, R404, R406). -/
def execSliceTransmit (k : Nat) (s : State) : Host.Outcome State Fault Refusal :=
  match s.band? k with
  | none => .next s
  | some b =>
    if b.dead then (if s.mustWait { b with dead := true } false then .next s else .next (s.sendRepeat b))
    else
      match b.start with
      | some _ => .next (s.sendFragment b)
      | none =>
        if b.data.isNone || decide (b.deadline.toNat < s.stime) || s.mustWait b true then .next s
        else .next (s.sendFragment { b with start := some (BitVec.ofNat 64 s.stime), slice := s.sliceOf b })

end Sys2Proof.Machine
end

