-- ==== Sys2Proof/Machine/Geometry.lean ====
section
/-! DEFINITION. The exact arithmetic of the base-tier engines: rationals and their rounding, boxes and triangles (R286 to
R288), texels (R290), pixel words (R291), and the check code of a sample record (R281). -/
namespace Sys2Proof.Machine

/-! ### Rationals -/

/-- m · 2^e. -/
def ratScale (m : Int) (e : Int) : Rat := if 0 ≤ e then ((m * 2 ^ e.toNat : Int) : Rat) else mkRat m (2 ^ (-e).toNat)

/-- The finite value of a pattern. -/
def Fmt.rat? (f : Fmt) (v : Nat) : Option Rat :=
  match f.num v with
  | .fin s m e => some (ratScale (if s then -(m : Int) else m) e)
  | _ => none

/-- Bits after the point that decide every rounding into FP32. -/
def ratBits : Nat := 300

/-- A rational rounded once into FP32 to nearest even. -/
def roundRat (x : Rat) : Nat :=
  let n := x.num.natAbs * 2 ^ ratBits
  fp32.round 0 (decide (x.num < 0)) (n / x.den) (-(ratBits : Int)) (n % x.den != 0)

/-- Three coordinates. -/
structure V3 where
  x : Rat
  y : Rat
  z : Rat
  deriving DecidableEq, Repr, Inhabited

/-- The sum. -/
def V3.add (a b : V3) : V3 := { x := a.x + b.x, y := a.y + b.y, z := a.z + b.z }
/-- The difference. -/
def V3.sub (a b : V3) : V3 := { x := a.x - b.x, y := a.y - b.y, z := a.z - b.z }
/-- A multiple. -/
def V3.mul (t : Rat) (a : V3) : V3 := { x := t * a.x, y := t * a.y, z := t * a.z }
/-- The scalar product. -/
def V3.dot (a b : V3) : Rat := a.x * b.x + a.y * b.y + a.z * b.z
/-- The vector product. -/
def V3.cross (a b : V3) : V3 :=
  { x := a.y * b.z - a.z * b.y, y := a.z * b.x - a.x * b.z, z := a.x * b.y - a.y * b.x }
/-- Every coordinate is zero. -/
def V3.isZero (a : V3) : Bool := a.x == 0 && a.y == 0 && a.z == 0

/-- Three finite numbers of a format. -/
def v3? (f : Fmt) (a b c : Nat) : Option V3 :=
  match f.rat? a, f.rat? b, f.rat? c with
  | some x, some y, some z => some { x := x, y := y, z := z }
  | _, _, _ => none

/-! ### Rays -/

/-- The request of a ray (R287). -/
structure Ray where
  o : V3
  d : V3
  lo : Rat
  hi : Rat
  deriving DecidableEq, Repr, Inhabited

/-- A ray that can hit: finite components, a direction, and a segment (R287). -/
def rayOf (ws : List Word) : Option Ray :=
  let w := fun i => (ws.getD i 0).toNat
  match v3? fp32 (w 0) (w 1) (w 2), v3? fp32 (w 3) (w 4) (w 5), fp32.rat? (w 6), fp32.rat? (w 7) with
  | some o, some d, some lo, some hi => if d.isZero || hi < lo then none else some { o := o, d := d, lo := lo, hi := hi }
  | _, _, _, _ => none

/-- The part of a segment between two planes across an axis. -/
def clip (o d lo hi : Rat) (r : Rat × Rat) : Option (Rat × Rat) :=
  if d = 0 then (if lo ≤ o && o ≤ hi then some r else none)
  else
    let a := (lo - o) / d
    let b := (hi - o) / d
    let p := (max r.1 (min a b), min r.2 (max a b))
    if p.1 ≤ p.2 then some p else none

/-- A box. -/
structure Box where
  lo : V3
  hi : V3
  deriving DecidableEq, Repr, Inhabited

/-- The box meets the segment (R287). -/
def Box.meets (b : Box) (r : Ray) : Bool :=
  ((clip r.o.x r.d.x b.lo.x b.hi.x (r.lo, r.hi)).bind fun p =>
    (clip r.o.y r.d.y b.lo.y b.hi.y p).bind fun p => clip r.o.z r.d.z b.lo.z b.hi.z p).isSome

/-- The box of child `k` of a node, none where the child is empty (R286). -/
def childBox (node k : Nat) : Option Box :=
  match v3? fp16 (bits node 15 0) (bits node 31 16) (bits node 47 32),
        v3? fp16 (bits node 63 48) (bits node 79 64) (bits node 95 80) with
  | some o, some s =>
    let q := bits node (128 + 48 * k + 47) (128 + 48 * k)
    let at_ := fun (i : Nat) => ((bits q (8 * i + 7) (8 * i) : Nat) : Rat)
    let b : Box := { lo := { x := o.x + s.x * at_ 0, y := o.y + s.y * at_ 1, z := o.z + s.z * at_ 2 }
                     hi := { x := o.x + s.x * at_ 3, y := o.y + s.y * at_ 4, z := o.z + s.z * at_ 5 } }
    if b.hi.x < b.lo.x || b.hi.y < b.lo.y || b.hi.z < b.lo.z then none else some b
  | _, _ => none

/-- A hit: its parameter, primitive id, index, and barycentrics of vertices 1 and 2. -/
structure Hit where
  t  : Rat
  id : Nat
  at_ : Nat
  b1 : Rat
  b2 : Rat
  deriving DecidableEq, Repr, Inhabited

/-- The first hit wins: less t, then the lower primitive id, then the lower index (R287, R288). -/
def Hit.before (a b : Hit) : Bool :=
  if a.t < b.t then true else if b.t < a.t then false
  else if a.id < b.id then true else if b.id < a.id then false else a.at_ < b.at_

/-- The best of hits. -/
def bestHit (hs : List Hit) : Option Hit :=
  hs.foldl (fun m h => match m with | none => some h | some x => if h.before x then some h else some x) none

/-- Word `i` of bytes as a number. -/
def wordAt (bs : List Byte) (i : Nat) : Nat := leNat ((bs.drop (4 * i)).take 4)

/-- The hit of a ray on a leaf (R286, R287). -/
def leafHit (r : Ray) (index : Nat) (leaf : List Byte) : Option Hit :=
  let w := wordAt leaf
  match v3? fp32 (w 0) (w 1) (w 2), v3? fp32 (w 3) (w 4) (w 5), v3? fp32 (w 6) (w 7) (w 8) with
  | some v0, some v1, some v2 =>
    let e1 := v1.sub v0
    let e2 := v2.sub v0
    let n := e1.cross e2
    let det := r.d.dot n
    if n.isZero || det = 0 then none
    else
      let t := (v0.sub r.o).dot n / det
      let p := (r.o.add (V3.mul t r.d)).sub v0
      let nn := n.dot n
      let b1 := (p.cross e2).dot n / nn
      let b2 := (e1.cross p).dot n / nn
      if r.lo ≤ t && t ≤ r.hi && 0 ≤ b1 && 0 ≤ b2 && b1 + b2 ≤ 1 then
        some { t := t, id := w 9, at_ := index, b1 := b1, b2 := b2 }
      else none
  | _, _, _ => none

/-- The four words of a result (R287, R288). -/
def hitWords (h : Option Hit) : List Word :=
  match h with
  | some h => [word (roundRat h.t), word h.id, word (roundRat h.b1), word (roundRat h.b2)]
  | none => [word (fp32.infBits false), BitVec.allOnes 32, 0, 0]

/-- The result of a trace that did not end (R287). -/
def incompleteWords : List Word := [0x7FC00005, 0xFFFFFFFE, 0, 0]

/-- The coverage of a point by the triangle at a place of a list: its depth as `t` (R288). -/
def coverHit (px py : Rat) (place : Nat) (tri : List Byte) : Option Hit :=
  let w := wordAt tri
  match v3? fp32 (w 0) (w 1) (w 2), v3? fp32 (w 3) (w 4) (w 5), v3? fp32 (w 6) (w 7) (w 8) with
  | some v0, some v1, some v2 =>
    let area := (v1.x - v0.x) * (v2.y - v0.y) - (v2.x - v0.x) * (v1.y - v0.y)
    if area = 0 then none
    else
      let b1 := ((px - v0.x) * (v2.y - v0.y) - (v2.x - v0.x) * (py - v0.y)) / area
      let b2 := ((v1.x - v0.x) * (py - v0.y) - (px - v0.x) * (v1.y - v0.y)) / area
      if 0 ≤ b1 && 0 ≤ b2 && b1 + b2 ≤ 1 then
        some { t := v0.z + b1 * (v1.z - v0.z) + b2 * (v2.z - v0.z), id := w 9, at_ := place, b1 := b1, b2 := b2 }
      else none
  | _, _, _ => none

/-! ### Textures -/

/-- A texture (R289). -/
structure Texture where
  addr   : Nat
  w      : Nat
  h      : Nat
  format : Nat
  clampU : Bool
  clampV : Bool
  linear : Bool
  levels : Nat
  deriving DecidableEq, Repr, Inhabited

/-- The texture of a descriptor. -/
def textureOf (d : Nat) : Texture :=
  { addr := bits d 47 0, w := bits d 77 64 + 1, h := bits d 93 80 + 1, format := bits d 99 96, clampU := bitAt d 100
    clampV := bitAt d 101, linear := bitAt d 102, levels := bits d 107 104 }

/-- Bytes of a texel. -/
def Texture.texel (t : Texture) : Nat := if t.format = 1 then 8 else 4
/-- The width of a level. -/
def Texture.width (t : Texture) (l : Nat) : Nat := max 1 (t.w / 2 ^ l)
/-- The height of a level. -/
def Texture.height (t : Texture) (l : Nat) : Nat := max 1 (t.h / 2 ^ l)
/-- The address of a level: after the earlier levels (R290). -/
def Texture.level (t : Texture) (l : Nat) : Nat :=
  t.addr + (List.range l).foldl (fun n i => n + t.width i * t.height i * t.texel) 0

/-- An index under the wrapping of its axis. -/
def wrapIndex (clamped : Bool) (i : Int) (n : Nat) : Nat :=
  if clamped then (max 0 (min i ((n : Int) - 1))).toNat else (i % (n : Int)).toNat

/-- The texels of a request with their weights: column, row, weight (R290). -/
def Texture.taps (t : Texture) (l : Nat) (u v : Rat) : List (Nat × Nat × Rat) :=
  let w := t.width l
  let h := t.height l
  let at_ := fun (i j : Int) => (wrapIndex t.clampU i w, wrapIndex t.clampV j h)
  if !t.linear then
    let p := at_ (u * (w : Rat)).floor (v * (h : Rat)).floor
    [(p.1, p.2, 1)]
  else
    let x := u * (w : Rat) - 1 / 2
    let y := v * (h : Rat) - 1 / 2
    let i := x.floor
    let j := y.floor
    let a : Rat := (((x - (i : Rat)) * 256).floor : Rat) / 256
    let b : Rat := (((y - (j : Rat)) * 256).floor : Rat) / 256
    let tap := fun (i j : Int) (k : Rat) => let p := at_ i j; (p.1, p.2, k)
    ([tap i j ((1 - a) * (1 - b)), tap (i + 1) j (a * (1 - b)), tap i (j + 1) ((1 - a) * b), tap (i + 1) (j + 1) (a * b)]).filter
      fun x => x.2.2 != 0

/-- A dyadic weight as a number. -/
def weightNum (k : Rat) : Num := .fin false (k.num.natAbs * (65536 / k.den)) (-16)

/-- A channel of a texel: a rational of its own, or a number. -/
def Texture.channel (t : Texture) (bs : List Byte) (c : Nat) : Rat ⊕ Num :=
  match t.format with
  | 0 => .inl (mkRat (bs.getD c 0).toNat 255)
  | 1 => .inr (fp16.num (leNat ((bs.drop (2 * c)).take 2)))
  | _ => if c = 0 then .inr (fp32.num (wordAt bs 0)) else if c = 3 then .inl 1 else .inl 0

/-- The weighted sum of a channel, rounded once (R290). -/
def Texture.filter (t : Texture) (taps : List (Rat × List Byte)) (c : Nat) : Word :=
  let xs := taps.map fun x => (x.1, t.channel x.2 c)
  if xs.all fun x => (match x.2 with | .inl _ => true | .inr _ => false) then
    word (roundRat (xs.foldl (fun r x => r + x.1 * (match x.2 with | .inl q => q | .inr _ => 0)) 0))
  else
    word (fp32.pack 0 (Num.sum false (xs.map fun x =>
      Num.mul (weightNum x.1) (match x.2 with | .inr n => n | .inl _ => .fin false 0 0))))

/-! ### Pixels and check codes -/

/-- A channel of a pixel of `n` bits (R291). -/
def pixelChannel (n v : Nat) : Nat :=
  match fp32.num v with
  | .nan _ => 0
  | .inf s => if s then 0 else 2 ^ n - 1
  | .fin s m e => if s then 0 else min (2 ^ n - 1) (roundInt 0 false (m * (2 ^ n - 1)) e)

/-- The pixel word of three channels (R291). -/
def pixelWord (r8 : Bool) (r g b : Nat) : Word :=
  let n := if r8 then 8 else 10
  word (pixelChannel n r + 2 ^ n * pixelChannel n g + 2 ^ (2 * n) * pixelChannel n b)

/-- One bit of a CRC-16 with polynomial 0x1021. -/
def crcBit (c : Nat) : Nat := if bitAt c 15 then Nat.xor (2 * c % 65536) 0x1021 else 2 * c % 65536
/-- One byte, its most significant bit first. -/
def crcByte (c : Nat) (b : Byte) : Nat := (List.range 8).foldl (fun c _ => crcBit c) (Nat.xor c (256 * b.toNat))
/-- The check code of bytes (R281). -/
def crc16 (bs : List Byte) : Nat := bs.foldl crcByte 0xFFFF

end Sys2Proof.Machine
end

