-- ==== Sys2Proof/Machine/Engines.lean ====
section
/-! DEFINITION. The base-tier engine commands (R278, R279): sample records and rings (R280 to R283), gathers over Trestle
(R284, R285), rays, probes and textures (R286 to R290), and pixel stores (R291). -/
namespace Sys2Proof.Machine

/-! ### Issue -/

/-- The column's engines as an agent (R335, R341). -/
def columnUnit (g : Group) : Unit_ := { cls := .base, unit := coreCol g.core, agent := 4 }

/-- An engine command is issued: it raises the base path counter once and its flag (R279). -/
def LaneIn.command (x : LaneIn) (w : Work) : State × LAct :=
  if !x.g.ctx.canRaise x.flag [4] then (x.s, .wait 12)
  else
    (x.s, .go (x.g.push
      { work := w, flag := x.flag, paths := [4], lane := true, slot := pathIndex x.p x.slot, stream := x.slot.toNat
        pc := x.g0.ctx.pc, laneIndex := x.p.pc, word := Sys2Proof.word (x.word / 2 ^ 64), mask := x.ex, full := x.word }))

/-- The requests of the participating lanes: words from a register on. -/
def LaneIn.requests (x : LaneIn) (reg n : Nat) : List (Nat × List Word) :=
  (lanesOf x.ex).map fun l => (l, x.words reg n l)

/-- The first faulting lane's code with the mask of the lanes that take it (R216, R279). -/
def LaneIn.firstFault (x : LaneIn) (f : Nat → Option (Code × Nat)) : Option LAct :=
  let fs := (lanesOf x.ex).filterMap fun l => (f l).map fun c => (l, c)
  match fs with
  | [] => none
  | (_, c, v) :: _ => some (.trap c (fs.foldl (fun m t => if t.2.1 = c then m ||| laneBit t.1 else m) 0) 0 v)

/-! ### Views -/

/-- A view (R280). -/
structure View where
  w    : Nat
  h    : Nat
  base : Nat
  deriving DecidableEq, Repr, Inhabited

/-- The view of a view word. -/
def viewOf (v : Word) : View := { w := bits v.toNat 20 13 + 1, h := bits v.toNat 28 21 + 1, base := 65536 * bits v.toNat 12 0 }

/-- The share of a partition in a stack's sample buffer: first byte and bytes. -/
def State.sampleShare (s : State) (die part : Nat) : Nat × Nat :=
  match s.part? die part with
  | some p => (65536 * (p.share die).sbBase, 65536 * (p.share die).sbSize)
  | none => (0, 0)

/-- The view leaves the share. -/
def State.viewOut (s : State) (die part : Nat) (v : View) : Bool :=
  decide ((s.sampleShare die part).2 < v.base + 1025 * v.w * v.h)

/-- What a view word breaks (R280): its fields, which have been found before (`State.barred`), then the bounds of the share. -/
def State.viewFault (s : State) (g : Group) (w : Word) : Option Code :=
  if viewReserved w.toNat then some .reservedField
  else if s.viewOut g.die (s.partOf g) (viewOf w) then some .accessViolation
  else none

/-- The key of a byte of a view. -/
def State.viewKey (s : State) (die part : Nat) (v : View) (off : Nat) : Nat :=
  2 ^ 29 * die + (s.sampleShare die part).1 + v.base + off

/-- The key of the head byte of a tile. -/
def State.headKey (s : State) (die part : Nat) (v : View) (tile : Nat) : Nat := s.viewKey die part v (1024 * v.w * v.h + tile)
/-- The key of a slot of a tile's ring. -/
def State.slotKey (s : State) (die part : Nat) (v : View) (tile slot : Nat) : Nat := s.viewKey die part v (1024 * tile + 32 * slot)

/-- The tile of a position word in a view (R282). -/
def View.tile (v : View) (pos : Word) : Option Nat :=
  let tx := pos.toNat % 2 ^ 16 / 256
  let ty := pos.toNat / 2 ^ 24
  if tx < v.w && ty < v.h then some (ty * v.w + tx) else none

/-! ### Records -/

/-- A record as the buffer writes it: foreign as told, valid, reserved bits zero, its check recomputed (R281, R282). -/
def sealRecord (r : Nat) (foreign overlap : Bool) : Nat :=
  let v := r % 2 ^ 232 + 2 ^ 237 + foreign.toNat * 2 ^ 239 + overlap.toNat * 2 ^ 238
  v + 2 ^ 240 * crc16 (leBytes 30 v)

/-- The record of eight registers. -/
def recordNat (ws : List Word) : Nat := leNat (wordBytes ws)

/-- The copy that goes to the other stack: position and second exchanged (R283). -/
def foreignCopy (r : Nat) : Nat := sealRecord (r / 2 ^ 64 * 2 ^ 64 + r % 2 ^ 32 * 2 ^ 32 + bits r 63 32) true false

/-- A record takes the slot at the head of its tile, and the head moves on (R282). -/
def State.pushRecord (s : State) (die part : Nat) (v : View) (tile r : Nat) : State :=
  let hk := s.headKey die part v tile
  let h := (Mem.byte s.sample hk).toNat % 32
  (s.writeMem .sample (s.slotKey die part v tile h) (leBytes 32 r)).writeMem .sample hk [BitVec.ofNat 8 ((h + 1) % 32)]

/-- The head byte of a tile reads as uncorrectable (R411). -/
def State.headBad (s : State) (die part : Nat) (v : View) (tile : Nat) : Bool := s.poisoned .sample (s.headKey die part v tile) 1

/-- `vsamp` (R282). -/
def execVsamp (l : LaneOp) (s : State) : Host.Outcome State Fault Refusal :=
  issueLaneS s (.vsamp l) fun x =>
    let vw := lane x.b.lo 0
    match x.s.viewFault x.g0 vw with
    | some c => (x.s, x.fault c)
    | none =>
      match x.firstFault fun i =>
          if ((viewOf vw).tile (x.g.vget l.va.toNat i)).isNone then some (.accessViolation, 0) else none with
      | some a => (x.s, a)
      | none =>
        let held := (x.s.gridOf x.g0).strict && !x.s.holdsToken x.g0
        if held && 4 ≤ x.g0.heldCount then (x.s, .wait 12)
        else x.command (.vsamp vw (x.requests l.va.toNat 8) held)

/-- One lane of a `vsamp`: its record, and the copy for the other stack (R282, R283). -/
def State.sampleLane (s : State) (g : Group) (o : Op) (vw : Word) (ws : List Word) : State :=
  let v := viewOf vw
  let r := recordNat ws
  let part := s.partOf g
  match v.tile (ws.getD 0 0) with
  | none => s
  | some t =>
    let s1 := s.pushRecord g.die part v t (sealRecord r false (bitAt r 238))
    if bitAt r 238 then
      { s1 with forwards := s1.forwards ++
          [{ die := 1 - g.die, part := part, grid := (s.blockOf g).grid, group := g.uid, op := o.id, view := vw
             record := leBytes 32 (foreignCopy r) }] }
    else s1

/-- A `vsamp` is performed in ascending lane order (R282); a lane whose tile's head cannot be read writes nothing. -/
def State.performSamp (s : State) (g : Group) (o : Op) (vw : Word) (rs : List (Nat × List Word)) : State :=
  let bad := fun (r : Nat × List Word) => match (viewOf vw).tile (r.2.getD 0 0) with
    | some t => s.headBad g.die (s.partOf g) (viewOf vw) t
    | none => false
  let s1 := (rs.filter fun r => !bad r).foldl (fun t r => t.sampleLane g o vw r.2) s
  let m := (rs.filter bad).foldl (fun m r => m ||| laneBit r.1) (0 : Word)
  s1.retireOp g.uid o (if m = 0 then none else some (unitFault o .uncorrectable 0 m 0))

/-- A count of the draw unit of a stack rises (R294). -/
def State.duCount (s : State) (die off : Nat) : State := s.setReg die (duBase + off) (s.reg die (duBase + off) + 1)

/-- VSAMP_FORWARD: the oldest copy on its way to a stack is written there, or dropped and counted on that stack (R283,
R294). So is one whose tile has a head byte that reads as uncorrectable: a choice of the model (log 146). -/
def execVsampForward (die : Nat) (s : State) : Host.Outcome State Fault Refusal :=
  match s.forwards.find? fun f => f.die == die with
  | none => .next s
  | some f =>
    if (s.die die).retrain then .next s
    else
      let s1 := ({ s with forwards := s.forwards.erase f } : State).linkQuiet
      let v := viewOf f.view
      let r := leNat f.record
      match v.tile (word r) with
      | some t =>
        if s.viewOut die f.part v || s.headBad die f.part v t then .next (s1.duCount die (0x100 + 4 * f.part))
        else .next (s1.pushRecord die f.part v t r)
      | none => .next (s1.duCount die (0x100 + 4 * f.part))

/-! ### Gathers -/

/-- `vsgat` (R284). A fault of a lane's destination reports the offset in the own-core window, one of its tile 0: a choice of the model
(R285, log 147). -/
def execVsgat (l : LaneOp) (s : State) : Host.Outcome State Fault Refusal :=
  issueLaneS s (.vsgat l) fun x =>
    let vw := lane x.b.lo 0
    let v := viewOf vw
    let share := (x.s.ownShare x.g0).2
    match x.s.viewFault x.g0 vw with
    | some c => (x.s, x.fault c)
    | none =>
      match x.firstFault fun i =>
          let d := (lane x.c.lo i).toNat
          if v.w * v.h ≤ (lane x.a.lo i).toNat % 2 ^ 15 then some (.accessViolation, 0)
          else if d % 32 ≠ 0 then some (.misaligned, d)
          else if share < d + 32 then some (.sliceUnmapped, d)
          else none with
      | some a => (x.s, a)
      | none =>
        let col := fun (w : Lanes) => (lanesOf x.ex).map fun i => (i, lane w i)
        x.command (.vsgat vw (lane x.b.hi 0) l.vd.toNat (col x.a.lo) (col x.c.lo) (x.s.partOf x.g0))

/-- The block that receives a gather on a core (R285). -/
def State.receiver (s : State) (g : Group) (core : Nat) : Option Block :=
  let b := s.blockOf g
  let k := s.gridOf g
  if b.on g.die core then some b
  else if k.nbhd = 0 then none
  else (List.range k.nbhd).findSome? fun n => (s.slotBlock g n).bind fun x => if x.on g.die core then some x else none

/-- The bytes that a gather delivers for a slot, and whether its check has failed (R285). -/
def deliverable (bs : List Byte) : List Byte × Bool :=
  let zero := List.replicate 32 (0 : Byte)
  let r := leNat bs
  if r = 0 then (zero, false)
  else if crc16 (bs.take 30) ≠ r / 2 ^ 240 then (zero, true)
  else if bitAt r 237 then (bs, false)
  else (zero, false)

/-- Records land on a core in lane order until one does not fit; the truth says that delivery stopped (R285). An object whose reserved
bits are not zero is decreased like any other: a choice of the model (log 135). -/
def State.deliverTo (s : State) (die core : Nat) (share : Nat × Nat) (obj : Nat) : List (Nat × List Byte) → Bool × State
  | [] => (false, s)
  | (d, bs) :: t =>
    if share.2 < d + 32 || share.2 < obj + 16 then (true, s)
    else
      ((s.writeMem .core (coreKey die core (share.1 + d)) bs).landAt (coreKey die core (share.1 + obj)) 32).deliverTo
        die core share obj t

/-- A gather is delivered to one core. -/
def State.deliverCore (s : State) (g : Group) (obj core : Nat) (rs : List (Nat × List Byte)) : Bool × State :=
  match s.receiver g core with
  | none => (true, s)
  | some b => s.deliverTo g.die core (b.share (core - b.core)) obj rs

/-- A gather is delivered to the selected rows of the column. -/
def State.deliverRows (s : State) (g : Group) (obj : Nat) (rs : List (Nat × List Byte)) : List Nat → Bool × State
  | [] => (false, s)
  | r :: t =>
    let (bad, s1) := s.deliverCore g obj (16 * r + coreCol g.core) rs
    let (bad', s2) := s1.deliverRows g obj rs t
    (bad || bad', s2)

/-- The record that a lane of a gather names: the lane, and its bytes, or none where it reads as uncorrectable. -/
def State.gatherLane (s : State) (g : Group) (part : Nat) (v : View) (x : (Nat × Word) × (Nat × Word)) :
    Nat × Nat × Option (List Byte) :=
  let tile := x.1.2.toNat % 2 ^ 15
  let age := bits x.1.2.toNat 20 16
  let h := (Mem.byte s.sample (s.headKey g.die part v tile)).toNat % 32
  let key := s.slotKey g.die part v tile ((h + 63 - age) % 32)
  (x.1.1, x.2.2.toNat,
   if s.headBad g.die part v tile || s.poisoned .sample key 32 then none else some (s.readMem .sample key 32))

/-- A gather is performed (R285). Where a record reads as uncorrectable and delivery to a core stops, UNCORRECTABLE is taken: a choice
of the model (log 136). The deferred faults report the address 0 (log 147). -/
def State.performGather (s : State) (g : Group) (o : Op) (vw obj : Word) (mask : Nat) (srcs dsts : List (Nat × Word))
    (part : Nat) : State :=
  let rs := (srcs.zip dsts).map (s.gatherLane g part (viewOf vw))
  let good := rs.filterMap fun r => r.2.2.map fun bs => (r.2.1, deliverable bs)
  let lost := (rs.filter fun r => r.2.2.isNone).foldl (fun m r => m ||| laneBit r.1) (0 : Word)
  let s1 := good.foldl (fun (t : State) r => if r.2.2 then t.duCount g.die (0x140 + 4 * part) else t) s
  let (bad, s2) := s1.deliverRows g (16 * (obj.toNat % 2 ^ 17)) (good.map fun r => (r.1, r.2.1))
    ((List.range 8).filter fun r => bitAt mask r)
  s2.retireOp g.uid o
    (if lost ≠ 0 then some (unitFault o .uncorrectable 0 lost 0)
     else if bad then some (unitFault o .sliceUnmapped 0 o.mask 0) else none)

/-- VSGAT_DELIVERY (R285): in issue order on the base path (R83). -/
def execVsgatDelivery (u op : Nat) (s : State) : Host.Outcome State Fault Refusal :=
  match s.group? u with
  | none => .next s
  | some g =>
    match g.op? op with
    | none => .next s
    | some o =>
      match o.work with
      | .vsgat vw obj mask srcs dsts part =>
        if g.turnOf o then .next (s.performGather g o vw obj mask srcs dsts part) else .next s
      | _ => .next s

/-! ### Rays -/

/-- `vtrace` (R287). -/
def execVtrace (l : LaneOp) (s : State) : Host.Outcome State Fault Refusal :=
  issueLaneS s (.vtrace l) fun x => x.command (.vtrace (x.b.wide 0).toNat l.vd.toNat (x.requests l.va.toNat 8))

/-- Bytes that an engine of the group's column reads. -/
def State.columnRead (s : State) (g : Group) (va n : Nat) : Eng (List Byte) := s.engBytes g .base (coreCol g.core) va n

/-- The reachable children of a node: index, and whether it is a leaf (R286, R287). -/
def reachable (r : Ray) (node : Nat) : List (Nat × Bool) :=
  ((List.range 8).filter fun k => match childBox node k with | some b => b.meets r | none => false).map fun k =>
    (bits node 119 96 + k, bitAt node (120 + k))

/-- The hits of the reachable leaves of a level and below; none where the trace does not end: more than 65,536 nodes, or a
child more than 48 levels below the root (R287). -/
def State.traceLevel (s : State) (g : Group) (root : Nat) (r : Ray) :
    Nat → List Nat → List Nat → List Hit → Eng (Option (List Hit))
  | fuel, nodes, seen, hits =>
    let seen := (seen ++ nodes).eraseDups
    if nodes.isEmpty then .ok (some hits)
    else if 65536 < seen.length then .ok none
    else
      (Eng.all (fun i => (s.columnRead g (root + 64 * i) 64).map fun b => reachable r (leNat b)) nodes).bind fun cs =>
        let cs := cs.flatten.eraseDups
        match fuel with
        | 0 => .ok (if cs.isEmpty then some hits else none)
        | fuel + 1 =>
          (Eng.all (fun i => (s.columnRead g (root + 64 * i) 64).map (leafHit r i))
              ((cs.filter (·.2)).map (·.1))).bind fun hs =>
            s.traceLevel g root r fuel ((cs.filter fun c => !c.2).map (·.1)) seen (hits ++ hs.filterMap id)

/-- The result of one ray (R287). -/
def State.traceLane (s : State) (g : Group) (root : Nat) (ws : List Word) : Eng (List Word) :=
  match rayOf ws with
  | none => .ok (hitWords none)
  | some r =>
    (s.traceLevel g root r 48 [0] [] []).map fun x =>
      match x with
      | none => incompleteWords
      | some hs => hitWords (bestHit hs)

/-! ### Probes -/

/-- `vprobe` (R288): a position outside the table's tiles takes ACCESS_VIOLATION. -/
def execVprobe (l : LaneOp) (s : State) : Host.Outcome State Fault Refusal :=
  issueLaneS s (.vprobe l) fun x =>
    let r := l.imm.toNat % 512
    let bins := (x.b.wide 0).toNat
    let v : View := { w := bits bins 55 48 + 1, h := bits bins 63 56 + 1, base := 0 }
    match x.firstFault fun i => if (v.tile (lane x.a.lo i)).isNone then some (.accessViolation, 0) else none with
    | some a => (x.s, a)
    | none =>
      x.command (.vprobe bins (x.g0.u64 (r + 2)).toNat l.vd.toNat ((lanesOf x.ex).map fun i => (i, lane x.a.lo i)))

/-- The result at one position (R288). -/
def State.probeLane (s : State) (g : Group) (bins tris : Nat) (pos : Word) : Eng (List Word) :=
  let v : View := { w := bits bins 55 48 + 1, h := bits bins 63 56 + 1, base := 0 }
  match v.tile pos with
  | none => .ok (hitWords none)
  | some i =>
    (s.columnRead g (bins % 2 ^ 48 + 8 * i) 8).bind fun b =>
      let e := leNat b
      let px := mkRat (pos.toNat % 65536 : Nat) 16
      let py := mkRat (pos.toNat / 65536 : Nat) 16
      (Eng.all (fun n => (s.columnRead g (tris + 48 * (bits e 31 0 + n)) 48).map (coverHit px py n))
        (List.range (bits e 47 32))).map fun hs => hitWords (bestHit (hs.filterMap id))

/-! ### Textures -/

/-- `vtex` (R289, R290). -/
def execVtex (l : LaneOp) (s : State) : Host.Outcome State Fault Refusal :=
  issueLaneS s (.vtex l) fun x => x.command (.vtex (x.b.wide 0).toNat l.vd.toNat (x.requests l.va.toNat 3))

/-- The filtered texel of one request (R290). -/
def State.texLane (s : State) (g : Group) (t : Texture) (ws : List Word) : Eng (List Word) :=
  let w := fun i => (ws.getD i 0).toNat
  let l := min (w 2) t.levels
  if 2 < t.format then .ok (List.replicate 4 0x7FC00005)
  else
    let taps := t.taps l ((fp32.rat? (w 0)).getD 0) ((fp32.rat? (w 1)).getD 0)
    (Eng.all (fun (p : Nat × Nat × Rat) =>
      (s.columnRead g (t.level l + (p.2.1 * t.width l + p.1) * t.texel) t.texel).map fun bs => (p.2.2, bs)) taps).map fun xs =>
        (List.range 4).map (t.filter xs)

/-- The results of a `vtex`: the descriptor is read for each lane (R289). -/
def State.texRequest (s : State) (g : Group) (desc : Nat) (ws : List Word) : Eng (List Word) :=
  (s.columnRead g (desc / 64 * 64) 32).bind fun d => s.texLane g (textureOf (leNat d)) ws

/-! ### Completion -/

/-- The code that a group takes for an engine's fault, and the code with which the other stack refused. -/
def Eng.code {α : Type} (e : Eng α) : Option (Code × Nat × Option Code) :=
  match e with
  | .fault c v => some (c, v, none)
  | .remote c v => some (.remoteFault, v, some c)
  | .away v => some (.remoteTimeout, v, none)
  | _ => none

/-- The address at which an engine waits for a translation. -/
def Eng.missed {α : Type} (e : Eng α) : Option Nat :=
  match e with
  | .miss v => some v
  | _ => none

/-- The address at which an engine has met an absent page. -/
def Eng.page {α : Type} (e : Eng α) : Option Nat :=
  match e with
  | .absent v => some v
  | _ => none

/-- The lanes of results that meet a condition. -/
def engLanes {α : Type} (rs : List (Nat × α)) (p : α → Bool) : Word :=
  rs.foldl (fun m r => if p r.2 then m ||| laneBit r.1 else m) 0

/-- The engine of a group's column has used the translations of its results, in lane order; those of a lane that ends in a fault do
not count (R335, log 94). -/
def State.useColumn (s : State) (g : Group) (rs : List (Nat × Eng (List Word))) : State :=
  let used := rs.flatMap fun r => match r.2 with
    | .ok _ used => used
    | _ => []
  used.foldl (fun t va => t.useTlb g .base (coreCol g.core) va 1) (s.engCrossed g (columnUnit g) used)

/-- The results of the lanes of a command are written, and it retires with the fault of its lowest faulting lane (R217, R279). -/
def State.finishCommand (s : State) (g : Group) (o : Op) (dst : Nat) (rs : List (Nat × Eng (List Word))) : State :=
  let u := columnUnit g
  let g1 := rs.foldl (fun g r =>
    match r.2 with
    | .ok ws _ => (List.range ws.length).foldl (fun g i => g.landV o.level (dst + i) r.1 (ws.getD i 0)) g
    | _ => g) g
  let fs := rs.filterMap fun r => r.2.code.map fun c => (r.1, c)
  let first := fun (p : Code × Nat × Option Code → Bool) => ((fs.find? fun f => p f.2).map (·.2.2.1)).getD 0
  let refused := ((fs.filterMap fun f => f.2.2.2).eraseDups).foldl (fun t c =>
    t.unitRemote g u o c false (engLanes fs fun x => x.2.2 == some c) (first fun x => x.2.2 == some c)) ((s.useColumn g rs).setGroup g1)
  let late := fun (x : Code × Nat × Option Code) => x.1 == .remoteTimeout
  let s1 := if fs.any fun f => late f.2 then refused.unitRecord g u o g.die 0x26 0 false (engLanes fs late) (first late) else refused
  s1.retireOp g.uid o (fs.head?.map fun f =>
    unitFault o f.2.1 (if f.2.1 == .remoteFault || f.2.1 == .remoteTimeout then word (1 - g.die) else 0)
      (engLanes fs fun x => x.1 == f.2.1) f.2.2.1)

/-- The engine of a command has looked at its lanes: it waits for a translation, then for a page, which holds the whole command,
then for an answer of the other stack while there is time, and else it is done (R279, R336, R345). -/
def State.finishLanes (s : State) (g : Group) (o : Op) (dst : Nat) (rs : List (Nat × Eng (List Word))) : State :=
  let at_ := fun (f : Eng (List Word) → Option Nat) va => engLanes rs fun e => (f e).map (· / 4096) == some (va / 4096)
  match rs.findSome? fun r => r.2.missed with
  | some va => s.engMiss g (columnUnit g) 0 va none (some o.id) o.pcWord (at_ Eng.missed va)
  | none =>
    match rs.findSome? fun r => r.2.page with
    | some va => s.engAbsent g (columnUnit g) 0 va none (some o.id) o.pcWord (at_ Eng.page va)
    | none =>
      if (rs.any fun r => (r.2.code.map (·.1)) == some .remoteTimeout) && !s.expired g.die o.since then
        s.modGroup g.uid fun x => x.setOp { o with since := some (o.since.getD s.clk) }
      else s.finishCommand g o dst rs

/-- The accesses of a pixel store that waited for a page are found again: they then complete as stores (R279, R291). -/
def State.findPixels (s : State) (g : Group) (o : Op) (accs : List Acc) : State :=
  let cs := accs.map fun a => (a, s.check (g.reader o) .write 1 (a.va : Int) 4)
  match cs.findSome? fun c => match c.2 with | .miss v _ => some v | _ => none with
  | some v => s.walkFor g { s.asker g 4 1 o.pcWord o.mask v with oper := some o.id }
  | none =>
    match cs.findSome? fun c => match c.2 with | .absent v => some v | _ => none with
    | some v => s.engAbsent g { columnUnit g with cls := .loadStore, unit := g.core * 4 + g.quarter } 1 v none (some o.id) o.pcWord o.mask
    | none =>
      let f := fun (c : Acc × Checked) =>
        match c.2 with
        | .ok a sd => { a with lane := c.1.lane, data := c.1.data, held := sd && (s.gridOf g).strict && !s.holdsToken g }
        | .trap code v => { c.1 with va := v, performed := true, fault := some code }
        | _ => c.1
      let used := cs.foldl (fun t c => match c.2 with | .ok a _ => t.useAcc g a | _ => t) s
      used.modGroup g.uid fun x => x.setOp { o with work := .mem .store .none (cs.map f) }

/-- ENGINE_COMMAND_COMPLETE: the oldest command on the base path is performed and returns (R83, R279). -/
def execEngineCommandComplete (u op : Nat) (s : State) : Host.Outcome State Fault Refusal :=
  match s.group? u with
  | none => .next s
  | some g =>
    match g.op? op with
    | none => .next s
    | some o =>
      if !g.turnOf o || o.wait.isSome then .next s
      else
        match o.work with
        | .vsamp vw rs held => if held && !s.holdsToken g then .next s else .next (s.performSamp g o vw rs)
        | .vtrace root dst rs => .next (s.finishLanes g o dst (rs.map fun r => (r.1, (s.seenBy o).traceLane (g.reader o) root r.2)))
        | .vprobe bins tris dst rs =>
          .next (s.finishLanes g o dst (rs.map fun r => (r.1, (s.seenBy o).probeLane (g.reader o) bins tris r.2)))
        | .vtex desc dst rs => .next (s.finishLanes g o dst (rs.map fun r => (r.1, (s.seenBy o).texRequest (g.reader o) desc r.2)))
        | .vrowpk accs => .next (s.findPixels g o accs)
        | _ => .next s

/-! ### Pixel stores -/

/-- `vrowpk` (R291): a lane store of pixel words on the base path; an absent page holds the command (R279). -/
def execVrowpk (l : LaneOp) (s : State) : Host.Outcome State Fault Refusal :=
  issueLaneS s (.vrowpk l) fun x =>
    let s := x.s
    let base := (x.b.wide 0).toNat
    let va := fun i => base + 4 * (lane x.c.lo i).toNat
    let pixel := fun i => match x.words l.va.toNat 3 i with
      | [r, g, b] => leBytes 4 (pixelWord (l.vd.toNat == 1) r.toNat g.toNat b.toNat).toNat
      | _ => []
    let cs : LaneChecks := (lanesOf x.ex).map fun i => (i, s.check x.g .write 1 (va i : Int) 4)
    match LaneChecks.stop cs with
    | some (.inr (c, mask, v)) => (s, .trap c mask 0 v)
    | some (.inl (m, v)) => (s.walkFor x.g0 { s.asker x.g0 4 1 (Sys2Proof.word x.p.pc) m v with lane := true }, .wait 12)
    | none =>
      let absent := LaneChecks.absents cs
      let strict := (s.gridOf x.g0).strict && !s.holdsToken x.g0
      let oks : List Acc := (LaneChecks.oks cs).map fun a => { a.1 with data := pixel a.1.lane, held := a.2 && strict }
      if oks.any (·.held) && 4 ≤ x.g0.heldCount then (s, .wait 12)
      else
        match absent with
        | [] =>
          match x.command (.mem .store .none oks) with
          | (s1, .go g1) => (oks.foldl (fun t a => t.useAcc x.g0 a) s1, .go g1)
          | r => r
        | (_, page) :: _ =>
          let pages := (absent.map (·.2)).eraseDups
          if (s.gridOf x.g0).aborts then ((s.joinPages x.g0 pages).abortBlock (s.blockOf x.g0) page, .stop)
          else
            let accs : List Acc := (lanesOf x.ex).map fun i => { lane := i, va := va i, data := pixel i }
            match x.command (.vrowpk accs) with
            | (s1, .go g1) => (s1.joinPages x.g0 pages, .go ((g1.unask pages).opWaits (g1.nextOp - 1) page))
            | r => r

end Sys2Proof.Machine
end

