-- ==== Sys2Proof/Machine/LaneControl.lean ====
section
/-! DEFINITION. The start of a lane block (R18, R161), clause headers (R128, R129, R217), the branch and end instructions
of the lane stream (R227 to R230). -/
namespace Sys2Proof.Machine

/-- LANE_BLOCK_START: the oldest entry of the queue starts once the block before it has completed; its mask is that of
`lrun` with the live-lane mask, and an empty one completes at once (R18, R161, R230). -/
def execLaneBlockStart (u : Nat) (s : State) : Host.Outcome State Fault Refusal :=
  match s.group? u with
  | none => .next s
  | some g =>
    let c := g.ctx
    match c.queue with
    | [] => .next s
    | (i, m) :: rest =>
      if c.busy || g.trapWaits then .next s
      else
        let m := m &&& g.live
        let c' := { c with
          queue := rest, busy := m != 0, start := m, done := 0, s0 := [], s1 := []
          p0 := if m = 0 then {} else { st := .running, pc := i, mask := m }, p1 := {} }
        .next (s.setGroup ((g.setCtx c').mapFeeds Feed.started))

/-- A clause header (R128, R129): the clause starts when the flags of its wait mask are zero. The deferred faults of
those flags are delivered there (R217), and the feeds of those flags that the path stands behind are observed (R255). -/
def execClauseStart (h : Header) (s : State) : Host.Outcome State Fault Refusal :=
  match s.cur with
  | none => .fault .noIssuer
  | some c =>
    match s.group? c.group with
    | none => .fault .noIssuer
    | some g =>
      let fs := flagMask h.wait.toNat
      if !(fs.all fun f => g.ctx.flag f == 0) then .next (s.setGroup (g.waitL 7))
      else
        match g.due (g.flagFault fs) with
        | some d =>
          .next (s.raise g c.slot.toNat { d.trap with
            op := some d.op, resume := g.ctx.pc, pc := if d.trap.lane then g.ctx.pc else d.trap.pc })
        | none =>
          let p := g.ctx.path c.slot
          let p' := { p with
            pc := p.pc + 1, left := h.count.toNat + 1, again := none
            setA := if h.setAv then some h.setA.toNat else none
            setB := if h.setBv then some h.setB.toNat else none }
          let g' := (g.setCtx (g.ctx.setPath c.slot p')).mapFeeds (Feed.laneSees p.active fs)
          .next (s.setGroup g')

/-- A branch in the immediate names indices in the lane section, or takes ACCESS_VIOLATION (R227). -/
def State.laneIndexOk (s : State) (g : Group) (i : Nat) : Bool := decide (i < s.laneCount g)

/-- The group with every write of the path visible: a control instruction ends its clause (R129). -/
def LaneIn.settled (x : LaneIn) : Group := x.g.settleAll x.slot

/-- `vbr` (R228). -/
def execVbr (l : LaneOp) (s : State) : Host.Outcome State Fault Refusal :=
  issueLane s (.vbr l) fun x =>
    let t := bits l.imm.toNat 15 0
    let r := bits l.imm.toNat 31 16
    if !x.s.laneIndexOk x.g0 t || !x.s.laneIndexOk x.g0 r then .trap .accessViolation x.ex 0 0
    else
      let g := x.settled
      .go (g.setCtx (g.ctx.branch x.slot x.p.pc t (x.p.pc + 1) r x.act x.ex))

/-- The path holds lanes that come back to the `vbrx` at an index: they issue it again (R229). -/
def Path.comeBack (p : Path) (i : Nat) (m : Word) : Path :=
  if p.st == .running && p.pc == i && p.mask &&& m != 0 then { p with xAt := some i } else p

/-- `vbrx` (R229): lanes whose guard is false take the next index; the least target is split off, and the rest issue
`vbrx` again. -/
def execVbrx (l : LaneOp) (s : State) : Host.Outcome State Fault Refusal :=
  issueLane s (.vbrx l) fun x =>
    let i := x.p.pc
    let target := fun (n : Nat) => if inMask x.ex n then (lane x.a.lo n).toNat else i + 1
    let bad := x.act &&& maskOf fun n => !x.s.laneIndexOk x.g0 (target n)
    let r := bits l.imm.toNat 15 0
    if bad ≠ 0 then .trap .accessViolation bad 0 0
    else if !x.s.laneIndexOk x.g0 r then .trap .accessViolation x.ex 0 0
    else
      let t := (lanesOf x.act).foldl (fun m n => min m (target n)) (2 ^ 32)
      let taken := x.act &&& maskOf fun n => target n == t
      let g := x.settled
      let c := g.ctx.branch x.slot i t i r x.act taken
      let rest := x.act &&& ~~~taken
      .go (g.setCtx { c with p0 := c.p0.comeBack i rest, p1 := c.p1.comeBack i rest })

/-- `vend` (R230). -/
def execVend (l : LaneOp) (s : State) : Host.Outcome State Fault Refusal :=
  issueLane s (.vend l) fun x =>
    let g := x.settled
    .go (g.setCtx (g.ctx.endLanes x.slot x.act))

/-- `vexit` (R230). -/
def execVexit (l : LaneOp) (s : State) : Host.Outcome State Fault Refusal :=
  issueLane s (.vexit l) fun x =>
    let g := x.settled
    .go { g.setCtx (g.ctx.endLanes x.slot x.ex) with live := g.live &&& ~~~x.ex }

/-- `vnop` (R227). -/
def execVnop (l : LaneOp) (s : State) : Host.Outcome State Fault Refusal :=
  issueLane s (.vnop l) fun x => .go x.g

end Sys2Proof.Machine
end

