-- ==== Sys2Proof/Machine/Fetch.lean ====
section
/-! DEFINITION. Fetching an instruction: the code caches and their fills (R138), the fetch checks of R137, breakpoints
(R384), and what a turn of a stream runs. -/
namespace Sys2Proof.Machine

/-! ### Code caches -/

/-- Bytes of a line of a code cache (R138). -/
def lineBytes (lane : Bool) : Nat := if lane then 192 else 64

/-- A line of a core's code cache. -/
def State.line? (s : State) (die core part : Nat) (lane : Bool) (va : Nat) : Option CodeLine :=
  s.lines.find? fun l => l.die == die && l.core == core && l.lane == lane && l.part == part && l.va == va

/-- A line enters a cache: the oldest line of a full one leaves. -/
def State.cacheLine (s : State) (l : CodeLine) : State :=
  let same := fun (x : CodeLine) => x.die == l.die && x.core == l.core && x.lane == l.lane
  let ls := s.lines.filter fun x => !(same x && x.part == l.part && x.va == l.va)
  let room := if l.lane then 65536 / 192 else 512
  let ls := if (ls.filter same).length < room then ls else
    match ls.find? same with
    | some x => ls.erase x
    | none => ls
  { s with lines := ls ++ [l] }

/-- The places of the bytes of a line, from `i` on, that read as uncorrectable. -/
def State.badPlaces (s : State) : Nat → List (Nat × Nat) → List Nat
  | _, [] => []
  | i, r :: t => ((List.range r.2).filter fun k => s.poisoned .scene (r.1 + k) 1).map (i + ·) ++ s.badPlaces (i + r.2) t

/-- CODE_FETCH_FILL: the oldest outstanding line is read once and sent to every core that asked for it (R138). -/
def execCodeFetchFill (die : Nat) (s : State) : Host.Outcome State Fault Refusal :=
  let d := s.die die
  match d.fills with
  | [] => .next s
  | f :: rest =>
    let bytes := f.locs.flatMap fun r => s.readMem .scene r.1 r.2
    let bad := if s.poison.isEmpty then [] else s.badPlaces 0 f.locs
    let s1 := s.setDie die { d with fills := rest }
    .next (f.cores.foldl (fun t c =>
      t.cacheLine { die := die, core := c, lane := f.lane, part := f.part, va := f.va, bytes := bytes, bad := bad }) s1)

/-- Where a line lies: its translation, page by page. -/
inductive LineAt where
  | at_ (locs : List (Nat × Nat))
  | fault
  | miss (va : Nat)
  | absent (va : Nat)
  deriving DecidableEq, Repr, Inhabited

/-- The translation of bytes of code through the fetch TLB of the core (R137, R335). Every page that the line lies in is translated
and checked, that of the instruction or not: a choice of the model (log 102). -/
def State.lineAt (s : State) (g : Group) : Nat → Nat → Nat → LineAt
  | 0, _, _ => .at_ []
  | fuel + 1, va, n =>
    if n = 0 then .at_ []
    else if 2 ^ 48 ≤ va then .fault
    else
      match s.look g.die .fetch g.core (s.partOf g) ((s.blockOf g).extents ++ g.leaves) va with
      | .miss => .miss va
      | .fault => .absent va
      | .hit pte base =>
        let k := min n (4096 - va % 4096)
        if (pteKind pte != 0) || !pteX pte then .fault
        else
          match s.lineAt g fuel (va + k) (n - k) with
          | .at_ t => .at_ ((pteFrame pte + (va - base), k) :: t)
          | r => r

/-- A fill is asked for, or joined (R138). -/
def State.askFill (s : State) (g : Group) (lane : Bool) (va : Nat) (locs : List (Nat × Nat)) : State :=
  let d := s.die g.die
  let part := s.partOf g
  let same := fun (f : Fill) => f.lane == lane && f.part == part && f.va == va
  if d.fills.any same then
    s.setDie g.die { d with
      fills := d.fills.map fun f =>
        if same f && !f.cores.contains g.core then { f with cores := f.cores ++ [g.core] } else f }
  else s.setDie g.die { d with fills := d.fills ++ [{ lane := lane, part := part, va := va, cores := [g.core], locs := locs }] }

/-- What fetching an instruction gives. -/
inductive Fetched where
  | word (w : Nat)
  | fault
  /-- the bytes read as uncorrectable; the line leaves the cache -/
  | bad (s : State)
  /-- the line is on its way, or the walker is busy -/
  | wait (s : State)
  /-- a page is absent -/
  | absent (va : Nat)

/-- `n` bytes at an offset of a code section of `size` bytes at `base` (R137, R158, R161). Code that reads as uncorrectable is never
issued (R411): the stream takes a precise UNCORRECTABLE at the instruction, a choice of the model (log 125). -/
def State.fetch (s : State) (g : Group) (lane : Bool) (base size off n : Nat) : Fetched :=
  let ls := lineBytes lane
  let va := base + off / ls * ls
  if size < off + n then .fault
  else
    match s.line? g.die g.core (s.partOf g) lane va with
    | some l =>
      if l.bad.any fun i => off % ls ≤ i && i < off % ls + n then .bad { s with lines := s.lines.erase l }
      else .word (leNat ((l.bytes.drop (off % ls)).take n))
    | none =>
      match s.lineAt g 3 va (min ls (size - off / ls * ls)) with
      | .fault => .fault
      | .miss v =>
        .wait (s.walkFor g { s.asker g 6 3 (if lane then word (off / 12) else g.ctx.pc) 0 v with
          cls := .fetch, unit := g.core, lane := lane })
      | .absent v => .absent v
      | .at_ locs => .wait ((s.useTlb g .fetch g.core va (locs.map (·.2)).sum).askFill g lane va locs)

/-! ### Breakpoints -/

/-- Breakpoint register `k` matches the instruction at a position (R384). -/
def State.bpHits (s : State) (g : Group) (lane : Bool) (pos k : Nat) : Bool :=
  let p := s.partOf g
  let ctl := s.regN g.die (dbBpCtl p k)
  let at_ := s.regN g.die (dbBpPc p k)
  g.mode == .kernel && bitAt ctl 31 && decide (k < 4) != lane && (if lane then at_ % 65536 else at_) == pos &&
    (bitAt ctl 29 || bits ctl 28 27 == (s.blockOf g).variant) && (bitAt ctl 26 || bits ctl 12 0 == g.gid)

/-- The lowest breakpoint register that matches at a stream: 0 and 1 the slots, 3 the scalar stream. -/
def State.breakpoint? (s : State) (g : Group) (slot : Nat) : Option Nat :=
  let lane := slot != 3
  let pos := if lane then (g.k.path (slot == 1)).pc else g.k.pc.toNat
  if (g.stop slot).skip = some pos then none
  else (List.range 8).find? fun k => s.bpHits g lane pos k

/-- BREAKPOINT_MATCH: route 0 takes BREAKPOINT, route 1 stops the stream or path at the instruction, and with it a stop that
waited takes effect, but a watchpoint's inside a clause (R311, R384, R386, R395). Steps that each take SINGLE_STEP go on until a HALT (R388). -/
def execBreakpointMatch (u slot : Nat) (s : State) : Host.Outcome State Fault Refusal :=
  match s.group? u with
  | none => .next s
  | some g =>
    match s.breakpoint? g slot with
    | none => .next s
    | some k =>
      let info := word (0x10000 + k)
      let p := g.k.path (slot == 1)
      if bitAt (s.regN g.die (dbBpCtl (s.partOf g) k)) 30 then
        .next ((s.event g slot 1 info 0 0).stopHere g slot 1 ((g.stop slot).step && (g.stop slot).trapEach))
      else
        let t : Trap := { code := .breakpoint, lane := slot != 3, info := info, pc := g.k.pc, resume := g.k.pc
                          slot := if slot = 3 then 3 else pathIndex p (slot == 1), laneIndex := if slot = 3 then 0 else p.pc
                          mask := if slot = 3 then 0 else p.active
                          word := word ((s.cur.map (·.word)).getD 0 / (if slot = 3 then 1 else 2 ^ 64)) }
        .next (s.raise g slot t)

/-! ### Illegal opcodes -/

/-- UNASSIGNED_OPCODE_ISSUE: ILLEGAL_OPCODE for the stream that reached the word (R129, R137, R311). -/
def execUnassignedOpcodeIssue (lane : Bool) (w : Nat) (s : State) : Host.Outcome State Fault Refusal :=
  match s.cur with
  | none => .fault .noIssuer
  | some c =>
    match s.group? c.group with
    | none => .fault .noIssuer
    | some g =>
      if lane then .next (s.raise g c.slot.toNat (laneTrap g c.slot w .illegalOpcode (g.ctx.path c.slot).active 0 0))
      else .next (s.raise g 3 { code := .illegalOpcode, pc := g.ctx.pc, resume := g.ctx.pc, word := word w })

/-! ### Turns -/

/-- What a turn comes to: an instruction to run, or a state in which the stream waits. -/
inductive Turned where
  | run (i : Instr) (s : State)
  | idle (s : State)
  /-- the instruction that stands next in a stream whose quarter has issued another group's: `s'` is the state as it stays,
  but for the reason for which the instruction would wait -/
  | held (u : Nat) (lane : Bool) (i : Instr) (s s' : State)

/-- A stream that is not chosen: the reason for which its instruction would wait, else not_selected (R389). -/
def State.notChosen (s : State) (u : Nat) (lane : Bool) (r : Option State) : State :=
  let g? := r.bind fun t => t.group? u
  s.modGroup u fun g =>
    if lane then g.waitL ((g?.bind (·.whyL)).getD 15) else { g with whyS := some ((g?.bind (·.whyS)).getD 15) }

/-- The turn of a stream that is not chosen. -/
def State.heldTurn (s : State) (u : Nat) (lane : Bool) (t : Turned) : Turned :=
  match t with
  | .run i s' => .held u lane i s' s
  | .idle s' => .idle (s.notChosen u lane (some s'))
  | .held _ _ _ _ _ => .idle s

/-- The state in which a turn looks why its stream would wait: no earlier reason is left. -/
def State.noWhy (s : State) (u : Nat) : State := s.modGroup u fun g => { g with whyS := none, whyL := none }

/-- The fetch of a stream waits on an absent page: the block is aborted, or the stream stalls on the record (R25). -/
def State.fetchAbsent (s : State) (g g' : Group) (lane : Bool) (va : Nat) : State :=
  let s1 := if lane then s.joinLanePage g (va / 4096) else s.joinPage g (va / 4096)
  if (s.gridOf g).aborts then s1.abortBlock (s.blockOf g) (va / 4096) else s1.setGroup g'

/-- The group is parked whole in the mode it is in (R26). -/
def Group.parkedHere (g : Group) : Bool := if g.mode = .kernel then g.parkWhole.isSome else g.parkH.isSome

/-- The scalar stream of the group issues nothing now: it has exited, waits on a page, at a switch point, at the end of a
save or restore, is parked, stopped, or a trap waits for the lane paths. -/
def Group.scalarIdle (g : Group) : Option (Option Reason) :=
  if g.exited || g.saved || g.restored then some none
  else if g.mode == .kernel && g.stopS.stopped then some (some 0)
  else if g.parkedHere || g.pageWait.isSome then some (some 1)
  else if g.mode == .kernel && g.trapWaits then some none
  else if g.swAt.isSome && g.mode == .kernel then some (some 3)
  else none

/-- A lane word of the code of the group's mode, read through the page tables; one that cannot be read is 0. -/
def State.laneWord (s : State) (g : Group) (i : Nat) : Nat :=
  match s.readBytes g.die (s.partOf g) ((s.sections g).2.2.1 + 12 * i) 12 with
  | .ok bs => leNat bs
  | _ => 0

/-- A word is a clause header with a set-A or set-B among the flags of a mask (R128). -/
def headerSets (w m : Nat) : Bool :=
  let h := headerFields w
  laneOpcode w == 255 && ((h.setAv && bitAt m h.setA.toNat) || (h.setBv && bitAt m h.setB.toNat))

/-- The lane code from an index on comes to a clause that sets a flag of a mask, before any branch: at a `vend` it goes on with the
lane blocks that are queued. -/
def State.comesTo (s : State) (g : Group) (m : Nat) : Nat → Nat → List Nat → Bool
  | 0, _, _ => false
  | fuel + 1, i, rest =>
    let w := s.laneWord g i
    let op := laneOpcode w
    if s.laneCount g ≤ i || op = 0xA0 || op = 0xA1 then false
    else if headerSets w m then true
    else if op = 0xA2 then
      match rest with
      | [] => false
      | j :: t => s.comesTo g m fuel j t
    else s.comesTo g m fuel (i + 1) rest

/-- Lane code that runs on without a branch is about to raise a flag of a mask: a converged path that nothing holds, and the lane
blocks queued behind it. -/
def State.laneRaises (s : State) (g : Group) (m : Nat) : Bool :=
  let c := g.ctx
  let p := c.p0
  let fuel := 9 * s.laneCount g + 16
  if c.busy then
    p.st == .running && c.p1.st == .free && c.s0.isEmpty && p.serial.isNone && p.park.isNone && !p.atTrap && !g.stop0.stopped &&
      ((p.left != 0 && (p.setA.any (bitAt m) || p.setB.any (bitAt m))) || s.comesTo g m fuel p.pc (c.queue.map (·.1)))
  else
    match c.queue with
    | [] => false
    | q :: t => s.comesTo g m fuel q.1 (t.map (·.1))

/-- An `fwait` is not issued yet while lane code enqueued before it is about to raise one of its flags. When a stream issues is timing
(R19); that it issues then is what gives R303 its results (log 119). -/
def State.issuesLater (s : State) (g : Group) (i : Instr) : Bool :=
  match i with
  | .fwait m => s.laneRaises g m.toNat
  | _ => false

/-- The scalar stream at its next instruction. -/
def State.scalarFetch (s : State) (g : Group) : Turned :=
  let sec := s.sections g
  match s.fetch g false sec.1 sec.2.1 g.ctx.pc.toNat 4 with
  | .wait s' => .idle (s'.setGroup { g with whyS := some 2 })
  | .absent v => .idle (s.fetchAbsent g { g with pageWait := some (v / 4096), whyS := some 1 } false v)
  | .fault => .idle (s.raise g 3 { code := .accessViolation, pc := g.ctx.pc, resume := g.ctx.pc })
  | .bad s' => .idle (s'.raise g 3 { code := .uncorrectable, pc := g.ctx.pc, resume := g.ctx.pc })
  | .word w =>
    let s : State := { s with cur := some { group := g.uid, word := w } }
    if (s.breakpoint? g 3).isSome then .run (.breakpointMatch g.uid 3) s
    else
      match decodeScalar w with
      | .instr i => if s.issuesLater g i then .idle (s.setGroup { g with whyS := some 7 }) else .run i s
      | .reserved priv =>
        let c := if priv && g.mode == .kernel then Code.privileged else .reservedField
        .idle (s.raise g 3 { code := c, pc := g.ctx.pc, resume := g.ctx.pc, word := word w })

/-- The group's block is frozen for a move: its streams stop at their boundaries (R32, R329). -/
def State.frozen (s : State) (g : Group) : Bool := (s.blockOf g).st == .frozen

/-- The turn of a scalar stream. -/
def State.scalarTurn (s : State) (u : Nat) : Turned :=
  match s.group? u with
  | none => .idle s
  | some g =>
    match g.scalarIdle with
    | some why => .idle (s.setGroup { g with whyS := why })
    | none =>
      if s.frozen g then .idle (s.setGroup { g with whyS := none })
      else if g.stopDue 3 then .idle ((s.stopAt g 3).modGroup u fun x => { x with whyS := some 0 })
      else if s.usedS.contains g.quarterKey then
        s.heldTurn u false ((s.noWhy u).scalarFetch { g with whyS := none, whyL := none })
      else s.scalarFetch g

/-- A control instruction may stand only in the last position of a clause (R129). -/
def laneControlOp (op : Nat) : Bool := 0xA0 ≤ op && op ≤ 0xA3

/-- The path of a slot issues nothing now; between lane blocks none does (R17). -/
def Group.laneIdleWhy (g : Group) (slot : Bool) : Option (Option Reason) :=
  let p := g.ctx.path slot
  if g.ctx.busy && g.mode == .kernel && p.st != .free && (g.stop slot.toNat).stopped then some (some 0)
  else if p.st = .parked || p.park.isSome || g.parkedHere then some (some 1)
  else if !g.ctx.busy then some none
  else if p.st != .running then some none
  else if g.mode == .kernel && g.trapWaits &&
      (p.left == 0 || p.atTrap || (if slot then g.trap1.isSome else g.trap0.isSome)) then some none
  else none

/-- The lane word that a path has reached, with the state in which it is issued. -/
def State.laneWordTurn (s : State) (g : Group) (slot : Bool) (w : Nat) : Turned :=
  let p := g.ctx.path slot
  let op := laneOpcode w
  let s := { s with cur := some { group := g.uid, lane := true, slot := slot, word := w } }
  -- at a clause boundary stands a header, or the branch that a `vbrx` or a serial run comes back to (R225, R229, log 111)
  let again := p.left = 0 &&
    ((op = 0xA1 && p.xAt == some p.pc) || ((op = 0xA0 || op = 0xA1) && (p.serial.map (·.branch)) == some p.pc))
  let g1 := if again then g.setCtx (g.ctx.setPath slot { p with left := 1, setA := none, setB := none, again := none }) else g
  let p1 := g1.ctx.path slot
  let s1 := if again then s.setGroup g1 else s
  if (p1.left ≠ 0 || op ≠ 0xFF) && (s.breakpoint? g slot.toNat).isSome then .run (.breakpointMatch g.uid slot.toNat) s
  else if (p1.left = 0 && op ≠ 0xFF) || (p1.left ≠ 0 && op = 0xFF) || (laneControlOp op && p1.left ≠ 1) then
    .run (.unassignedOpcodeIssue true w) s
  else
    match decodeLane w with
    | .instr i => .run i s1
    | .reserved _ =>
      let guard : LaneOp := { (default : LaneOp) with pred := fld w 82 3, neg := bit w 81 }
      let mask := if op = 0xFF then p1.active else p1.active &&& maskOf (guardHolds g1.ctx guard)
      .idle (s1.raise g1 slot.toNat (laneTrap g1 slot w .reservedField mask 0 0))

/-- A lane path at its next instruction. -/
def State.laneFetch (s : State) (g : Group) (slot : Bool) : Turned :=
  let p := g.ctx.path slot
  let sec := s.sections g
  match s.fetch g true sec.2.2.1 sec.2.2.2 (12 * p.pc) 12 with
  | .wait s' => .idle (s'.setGroup (g.waitL 2))
  | .absent v =>
    .idle (s.fetchAbsent g (((g.setCtx (g.ctx.setPath slot { p with park := some (v / 4096) })).unask [v / 4096]).waitL 1) true v)
  | .fault => .idle (s.raise g slot.toNat (laneTrap g slot 0 .accessViolation p.active 0 0))
  | .bad s' => .idle (s'.raise g slot.toNat (laneTrap g slot 0 .uncorrectable p.active 0 0))
  | .word w => s.laneWordTurn g slot w

/-- The turn of a lane path. -/
def State.laneTurn (s : State) (u : Nat) (slot : Bool) : Turned :=
  match s.group? u with
  | none => .idle s
  | some g =>
    match g.laneIdleWhy slot with
    | some none => .idle s
    | some (some why) => .idle (s.setGroup (g.waitL why))
    | none =>
      let p := g.ctx.path slot
      if s.frozen g && p.left == 0 then .idle s
      else if g.stopDue slot.toNat then
        .idle ((s.stopAt g slot.toNat).modGroup u fun x => x.waitL 0)
      else if s.usedL.contains g.quarterKey then
        s.heldTurn u true ((s.noWhy u).laneFetch { g with whyS := none, whyL := none } slot)
      else s.laneFetch g slot

end Sys2Proof.Machine
end

