-- ==== Sys2Proof/Machine/Watch.lean ====
section
/-! DEFINITION. What watches the groups: the stall counters (R389), the sampler of each stack (R390, R391), the barrier
watchdog and its captures (R392, R393, R397). -/
namespace Sys2Proof.Machine

/-! ### Stall counters -/

/-- An access of the mode of the group is held for the commit token (R219, R252). -/
def Op.awaitsToken (o : Op) : Bool :=
  match o.work with
  | .mem _ _ accs => accs.any fun a => a.held && !a.performed
  | .mtst _ _ a => a.held
  | .vsamp _ _ held => held
  | .vrowpk accs => accs.any (·.held)
  | _ => false

/-- The lowest reason present on either stream: those for which they do not issue, and an access held for the token (R389). -/
def Group.why (g : Group) : Option Reason :=
  leastOf (g.whyS.toList ++ g.whyL.toList ++ if g.ops.any fun o => o.level == g.mode.level && o.awaitsToken then [4] else [])

/-- A counter advanced by one, saturating (R389). -/
def countStall (l : List Nat) (r : Nat) : List Nat := setNth l r (min (l.getD r 0 + 1) (2 ^ 32 - 1))

/-- STALL_COUNTER_CLK: on a clk on which the group issued on neither stream, one counter advances (R389). -/
def execStallCounterClk (u : Nat) (s : State) : Host.Outcome State Fault Refusal :=
  match s.group? u with
  | none => .next s
  | some g =>
    if g.issued || g.exited then .next s
    else
      match g.why with
      | none => .next s
      | some r => .next (s.setGroup { g with stalls := countStall g.stalls r, lastReason := r })

/-! ### The sampler -/

/-- One Galois step of the sampler's register; 0 acts as 1 (R390). -/
def lfsrStep (x : Nat) : Nat :=
  let x := if x = 0 then 1 else x
  if x % 2 = 1 then Nat.xor (x / 2) 0x80200003 else x / 2

/-- The next sample after one: the base interval, at least 64, and the jitter (R390). -/
def State.sampleGap (s : State) (die x : Nat) : Nat :=
  max 64 (s.regN die (pfBase + 4)) + Nat.land x (s.regN die pfBase % 65536)

/-- A physical address of a pair of registers, 4 KiB aligned (R390). -/
def State.ringBase (s : State) (die lo : Nat) : Nat :=
  s.regN die lo / 4096 * 4096 + 2 ^ 32 * (s.regN die (lo + 4) % 65536)

/-- The stalled group of a sample: the first of a quarter that issued nothing, in ascending residency slot from one on
(R390). -/
def State.stalled (s : State) (die core quarter first : Nat) : Option Group :=
  let gs := s.groups.filter fun g =>
    g.die == die && g.core == core && g.quarter == quarter && !g.exited && !g.issued
  (sortRank (fun (g : Group) => [(g.rslot + 64 - first) % 64]) gs).head?

/-- What a quarter issued on this clk, a lane instruction first (R391). -/
def State.issuedOn (s : State) (die core quarter : Nat) : Option Issue :=
  let key := die * 512 + core * 4 + quarter
  let last := fun (lane : Bool) => (s.die die).lastIssue.find? fun e => e.quarter == key && e.lane == lane
  if s.usedL.contains key then last true else if s.usedS.contains key then last false else none

/-- A sample record (R391). A stalled group with no reason leaves its field a free value (log 4). -/
def sampleRecord (s : State) (st : Option Group) (reason : Nat) (is : Option Issue) : Nat :=
  2 ^ 192 * s.clk + 2 ^ 160 * ((st.map fun g => g.ctx.pc.toNat).getD 0) + 2 ^ 128 * ((is.map (·.pos)).getD 0) +
  2 ^ 108 * reason + 2 ^ 104 * ((st.map s.partOf).getD 0) + 2 ^ 83 * ((st.map Group.gid).getD 0x1FFF) +
  2 ^ 67 * ((is.map (·.gid)).getD 0x1FFF) + 2 ^ 66 * ((is.map fun x => x.lane.toNat).getD 0) +
  2 ^ 62 * ((is.map (·.part)).getD 0)

/-- PROFILE_SAMPLE: one quarter of one core is examined, and a record written, or dropped where the ring is full (R390,
R391). -/
def execProfileSample (die : Nat) (s : State) : Host.Outcome State Fault Refusal :=
  let d := s.die die
  if !(d.sampler.next.any (· ≤ s.clk)) || !bitAt (s.regN die pfBase) 31 then .next s
  else
    let x := (fun v => if v = 0 then 1 else v) (s.regN die (pfBase + 8))
    let core := d.sampler.count % 128
    let quarter := x % 4
    let st := s.stalled die core quarter (4 * bits x 5 2 % 16)
    let (reason, s0) : Nat × State :=
      match st.map Group.why with
      | none => (0, s)
      | some (some r) => (r, s)
      | some none => let (w, t) := s.takeFree; (w.toNat % 16, t)
    let x' := lfsrStep x
    let s1 := (s0.setRegN die (pfBase + 8) x').setDie die
      { s0.die die with sampler := { next := some (s.clk + s.sampleGap die x'), count := d.sampler.count + 1 } }
    let head := s.regN die (pfBase + 0x18)
    let tail := s.regN die (pfBase + 0x1C)
    let n := max 4 (min 16 (s.regN die (pfBase + 0x14)))
    if (head + 2 ^ 17 - tail) % 2 ^ 17 = 2 ^ n then
      .next (s1.setRegN die (pfBase + 0x20) (s1.regN die (pfBase + 0x20) + 1))
    else
      let r := sampleRecord s st reason (s.issuedOn die core quarter)
      .next ((s1.writeMem .scene (s.ringBase die (pfBase + 0xC) + 32 * (head % 2 ^ n)) (leBytes 32 r)).setRegN die
        (pfBase + 0x18) ((head + 1) % 2 ^ 17))

/-! ### The barrier watchdog -/

/-- Lanes or the group are parked, in the context or in its handler, or a scalar access waits on a page fault (R26, R389). -/
def Group.isParked (g : Group) : Bool :=
  g.parkWhole.isSome || g.parkH.isSome || g.pageWait.isSome ||
    [g.k.p0, g.k.p1, g.h.p0, g.h.p1].any fun p => p.st == .parked || p.park.isSome

/-- The group has arrived at the barrier's running generation. -/
def Group.hasArrived (g : Group) (n : Nat) (gen : Word) : Bool := g.barLast.getD n none == some gen

/-- The timer of a barrier does not run now: its block is not resident, as one frozen for a move still is (R329), or a group that has
neither arrived nor exited is parked or stopped (R392). -/
def State.timerPaused (s : State) (b : Block) (n : Nat) : Bool :=
  (b.st != .resident && b.st != .frozen) ||
  (s.groupsOf b.uid).any fun g =>
    !g.exited && !g.hasArrived n (b.bar n).gen &&
      (g.isParked || g.stopS.stopped || g.stop0.stopped || g.stop1.stopped)

/-- The entry of a group in a capture (R393). -/
def State.captureGroup (s : State) (b : Block) (n i : Nat) : List Byte :=
  match (s.groupsOf b.uid).find? fun g => g.index == i with
  | some g =>
    if g.exited then wordBytes [g.k.pc, 0, g.live, word (2 + g.barWaited * 2 ^ 8)]
    else
      let st := if g.inHandler then 4 else if g.isParked then 3 else if g.hasArrived n (b.bar n).gen then 0 else 1
      wordBytes [g.ctx.pc, word (g.ctx.p0.pc % 65536 + g.ctx.p1.pc % 65536 * 65536), g.live,
        word (st + g.barWaited % 16 * 2 ^ 8 + g.lastReason % 16 * 2 ^ 12)]
  | none =>
    match b.keeps.find? fun x => x.index == i with
    | some x => wordBytes [x.exitPc, 0, x.live, word (2 + x.barWaited % 16 * 2 ^ 8)]
    | none => wordBytes [0, 0, 0, 0]

/-- A capture: its header, and an entry for each group (R393). -/
def State.captureBytes (s : State) (k : Grid) (b : Block) (n : Nat) : List Byte :=
  let x := b.bar n
  leBytes 64 (0x14 + 2 ^ 18 * k.part + 2 ^ 22 * k.queue + 2 ^ 27 * b.die + 2 ^ 28 * n + 2 ^ 272 * b.core +
    2 ^ 280 * (k.groups % 256) + 2 ^ 288 * (x.arr % 65536) + 2 ^ 304 * (x.exp % 65536) + 2 ^ 320 * x.gen.toNat +
    2 ^ 352 * (b.index % 2 ^ 32) + 2 ^ 384 * (x.first.getD 0 % 2 ^ 64) + 2 ^ 448 * (s.clk % 2 ^ 64)) ++
  (List.range k.groups).flatMap (s.captureGroup b n)

/-- The capture is written to the watchdog's ring, or dropped (R392). -/
def State.capture (s : State) (k : Grid) (b : Block) (n : Nat) : State :=
  let base := s.ringBase b.die (wdBase + 4)
  let head := s.regN b.die (wdBase + 0xC)
  let tail := s.regN b.die (wdBase + 0x10)
  if 8 ≤ (head + 2 ^ 16 - tail) % 2 ^ 16 || !s.inProt b.die base 32768 then
    s.setRegN b.die (wdBase + 0x14) (s.regN b.die (wdBase + 0x14) + 1)
  else
    (s.writeMem .scene (base + 4096 * (head % 8)) (s.captureBytes k b n)).setRegN b.die (wdBase + 0xC) ((head + 1) % 2 ^ 16)

/-- BARRIER_WATCHDOG_EXPIRY: the timer of a barrier counts the clk that pass, and where it exceeds the timeout a capture is
written and the queue context ends with reason 0xFA (R392, R397). -/
def execBarrierWatchdogExpiry (u n : Nat) (s : State) : Host.Outcome State Fault Refusal :=
  match s.block? u with
  | none => .next s
  | some b =>
    if (b.bar n).first.isNone || s.timerPaused b n then .next s
    else
      let c := (b.bar n).count + 1
      let s1 := s.modBlock u fun b => { b with bars := setNth b.bars n { b.bar n with count := c } }
      let ctl := s.regN b.die wdBase
      if bitAt ctl 31 && decide (clkPerUs * max 1 (ctl % 2 ^ 24) < c) then
        match s.grid? b.grid with
        | none => .next s1
        | some k => .next ((s1.capture k ((s1.block? u).getD b) n).terminateGrid k 3 0xFA)
      else .next s1

end Sys2Proof.Machine
end

