-- ==== Sys2Proof/Machine/Power.lean ====
section
/-! DEFINITION. Power states of the stacks (R417) and the governor (R418). -/
namespace Sys2Proof.Machine

/-- The wake times of D0 to D3 in clocks (R417). -/
def wakeClks (st : Nat) : Nat :=
  match st with
  | 0 => 0
  | 1 => 20 * clkPerUs
  | 2 => 400 * clkPerUs
  | _ => 8000 * clkPerUs

/-- A change of a stack's power. -/
def State.setPower (s : State) (die : Nat) (p : Power) : State := s.setDie die { s.die die with power := p }

/-- A stack is woken: an entry in progress is abandoned, a stack below D0 begins to wake (R417). The model takes the whole of
the wake time that R417 bounds. -/
def State.wake (s : State) (die : Nat) : State :=
  let p := (s.die die).power
  s.setPower die { p with
    toward := none, wake := if p.st = 0 then none else some (p.wake.getD (s.clk + wakeClks p.st)) }

/-- POWER_WAKE (R417). -/
def execPowerWake (die : Nat) (s : State) : Host.Outcome State Fault Refusal := .next (s.wake die)

/-- STACK_REACHES_D0: the wake ends (R417). -/
def execStackReachesD0 (die : Nat) (s : State) : Host.Outcome State Fault Refusal :=
  let p := (s.die die).power
  if p.wake.any (· ≤ s.clk) then .next (s.setPower die {}) else .next s

/-- A queue of the stack holds an available packet (R353). -/
def State.packetWaits (s : State) (die : Nat) : Bool :=
  !(s.die die).packets.isEmpty ||
  (List.range 32).any fun q =>
    s.regN die (pkQ q 0x14) % 4 == 1 && s.regN die (pkQ q 0xC) != s.regN die (pkQ q 0x10)

/-- A block of the stack is resident or pending: placed and not retired, saved or aborted, or not yet placed (R417). -/
def State.blockWaits (s : State) (die : Nat) : Bool :=
  (s.blocks.any fun b => b.die == die && b.st != .retired) ||
  s.grids.any fun k => k.die == die && k.st == .active && decide (k.next < k.blocks)

/-- The condition of a state below D0 holds (R417). A save area expects the core store of the stack on which its block runs. -/
def State.powerAllowed (s : State) (die st : Nat) : Bool :=
  let idle := !s.blockWaits die && !s.packetWaits die
  let noSave := !(s.pool.any fun a => s.blocks.any fun b => b.uid == a.block && b.die == die)
  match st with
  | 0 => true
  | 1 => idle
  | 2 => idle && noSave
  | _ => idle && noSave && !(s.parts.any fun p => p.die == die)

/-- The lowest state whose wake time is within PM_LATTOL and whose condition holds (R417). -/
def State.powerTarget (s : State) (die : Nat) : Nat :=
  let tol := clkPerUs * s.regN die pmBase
  (([3, 2, 1].filter fun n => wakeClks n ≤ tol && s.powerAllowed die n).head?).getD 0

/-- What a stack loses in a state: its core store in D2 and D3, the base tier's memories in D3 (R417). Lost bytes read 0
(log 2). -/
def State.powerLoss (s : State) (die st : Nat) : State :=
  if st < 2 then s
  else
    let s1 : State := (s.clearMem .core (die * 2 ^ 28) (2 ^ 28) : State)
    let s2 : State := { s1 with
      lines := s1.lines.filter fun l => l.die != die
      tlbs := s1.tlbs.filter fun t => t.die != die
      upper := s1.upper.filter fun u => u.die != die
      owners := s1.owners.filter fun o => !(o.space == .core && o.base / 2 ^ 28 == die) }
    if st < 3 then s2
    else
      (s2.clearMem .bank (die * 2 ^ 26) (2 ^ 26)).clearMem .sample (die * 2 ^ 29) (2 ^ 29)

/-- POWER_STATE_ENTRY: the power manager holds the stack in the lowest allowed state (R417): an entry begins, and is made at
the next look if it is still allowed; a stack that must leave its state for a higher one wakes. -/
def execPowerStateEntry (die : Nat) (s : State) : Host.Outcome State Fault Refusal :=
  let p := (s.die die).power
  let t := s.powerTarget die
  if p.wake.isSome || t = p.st then .next (s.setPower die { p with toward := none })
  else if t < p.st then .next (s.wake die)
  else if p.toward = some t then .next ((s.powerLoss die t).setPower die { st := t })
  else .next (s.setPower die { p with toward := some t })

/-- GOVERNOR_CHECK: the module's power, which the spec does not give, is compared with the cap (R418, log 4). -/
def execGovernorCheck (s : State) : Host.Outcome State Fault Refusal :=
  let (w, s1) := s.takeFree
  let power := w.toNat % 1024
  let s2 := s1.setRegN 0 (pmBase + 0xC) power
  .next { s2 with governed := decide (min 780 (s.regN 0 (pmBase + 8)) < power) }

end Sys2Proof.Machine
end

