-- ==== Sys2Proof/Machine/Registers.lean ====
section
/-! DEFINITION. The register windows (R6, R7, R402): which registers there are and which of their bits a write sets, queue
control (R353), semaphores (R377), partition descriptors (R346, R347), the fault ring's tail (R340), the allowlist lock
(R407), attestation (R415), and the one write of a register from outside. -/
namespace Sys2Proof.Machine

/-! ### The map -/

/-- Writable bits of the registers of PK (R352, R377), DP (R364), DU (R294). -/
def maskPk (o : Nat) : Option Word :=
  if 0x1000 ≤ o && o < 0x1800 then
    match o % 0x40 with
    | 0x00 => some 0xFFFFFFC0
    | 0x04 => some 0xFFFF
    | 0x08 => some 0x1F010F
    | 0x0C => some 0x1FFFF
    | 0x10 | 0x14 | 0x18 => some 0
    | _ => none
  else if 0x4000 ≤ o && o < 0x5000 && o % 4 == 0 then some 0xFFFFFFFF
  else none

/-- DP (R364). -/
def maskDp (o : Nat) : Option Word :=
  if o < 0x100 || 0x200 ≤ o || o % 4 != 0 then none
  else if o < 0x140 then some 0xFF
  else if o < 0x180 then some 0xFFFFFFFF
  else if o < 0x1C0 then some 0x1FFF
  else some 0

/-- DU (R294). -/
def maskDu (o : Nat) : Option Word := if 0x100 ≤ o && o < 0x180 && o % 4 == 0 then some 0 else none

/-- EG (R294, R403, R406, R407). -/
def maskEg (o : Nat) : Option Word :=
  if o == 0 then some 1
  else if o == 0x8 || o == 0xC then some 0xFFFFFFFF
  else if 0x20 ≤ o && o < 0x40 then
    match o % 16 with
    | 0 | 8 => some 0xFFFFFFFF
    | 4 => some 0xFFFF
    | _ => none
  else if 0x100 ≤ o && o < 0x200 && o % 4 == 0 then some 0
  else if o == 0x800 then some 1
  else if 0x1000 ≤ o && o < 0x1400 then
    match o % 16 with
    | 0 | 8 => some 0xFFFFFFFF
    | 4 => some 0xFFFF
    | 12 => some 0x80FFFF4F
    | _ => none
  else none

/-- VX (R350, R408). -/
def maskVx (o : Nat) : Option Word := if o == 0x10 then some 0xFFFF else if o == 0x20 || o == 0x24 then some 0 else none

/-- TW (R350, R409). -/
def maskTw (o : Nat) : Option Word :=
  if o % 4 != 0 then none
  else if o == 0 || o == 4 || o == 0x10 || o == 0x14 then some 0xFFFFFFFF
  else if o == 8 || o == 0x1C then some 0
  else if o == 0x18 then some 1
  else if 0x100 ≤ o && o < 0x180 then some (if o % 8 == 0 then 0xFFFFFFC1 else 0xFFFF)
  else if 0x180 ≤ o && o < 0x200 then some 0
  else if 0x200 ≤ o && o < 0x240 then some 0x1FFFF
  else none

/-- DB (R381, R384, R385, R416). -/
def maskDb (o : Nat) : Option Word :=
  if o % 4 != 0 then none
  else if o == 0 then some 0xF0FF
  else if o < 0x20 then some 0xFFFFFFFF
  else if o < 0x40 then some 0
  else if o == 0x40 then some 0xFFFF
  else if 0x100 ≤ o && o < 0x500 then some (if o % 8 == 0 then 0xFFFFFFFF else 0xFC001FFF)
  else if 0x1000 ≤ o && o < 0x2000 then some (if o % 8 == 0 then 0x1FFFFF else 0xFF000FFF)
  else none

/-- PF (R390). -/
def maskPf (o : Nat) : Option Word :=
  match o with
  | 0x00 => some 0x8000FFFF
  | 0x04 | 0x08 => some 0xFFFFFFFF
  | 0x0C => some 0xFFFFF000
  | 0x10 => some 0xFFFF
  | 0x14 => some 0x1F
  | 0x1C => some 0x1FFFF
  | 0x18 | 0x20 => some 0
  | _ => none

/-- PM (R417). -/
def maskPm (o : Nat) : Option Word :=
  match o with
  | 0x0 => some 0xFFFFFFFF
  | 0x8 => some 0x3FF
  | 0x4 | 0xC => some 0
  | _ => none

/-- SE (R415, R416). -/
def maskSe (o : Nat) : Option Word :=
  match o with
  | 0x0 => some 0xFFFFFFFF
  | 0x4 => some 0x0FFFFFFF
  | 0x8 | 0x10 => some 0
  | _ => none

/-- IC (R379). -/
def maskIc (o : Nat) : Option Word :=
  if 0x100 ≤ o && o < 0x300 then
    match o % 16 with
    | 0 => some 0x807FFFFF
    | 4 => some 0xFFFFFFFC
    | 8 => some 0xFFFF
    | 12 => some 0xFFFFFFFF
    | _ => none
  else if 0x400 ≤ o && o < 0x500 then
    match o % 16 with
    | 0 => some 0xFFFFFFFC
    | 4 => some 0xFFFF
    | 8 => some 0xFFFFFFFF
    | 12 => some 0x80000000
    | _ => none
  else none

/-- SC (R412, R413). -/
def maskSc (o : Nat) : Option Word := if o == 0 then some 0xFFFFFFFF else if o == 0x10 || o == 0x14 then some 0 else none

/-- WD (R392). -/
def maskWd (o : Nat) : Option Word :=
  match o with
  | 0x00 => some 0x80FFFFFF
  | 0x04 => some 0xFFFFF000
  | 0x08 | 0x10 => some 0xFFFF
  | 0x0C | 0x14 => some 0
  | _ => none

/-- The bits of a register that a write sets, none where no register is defined (R6, R402). -/
def regMask (off : Nat) : Option Word :=
  let o := off % 0x100000
  match off / 0x100000 with
  | 0 => maskPk o
  | 1 => maskDp o
  | 2 => maskDu o
  | 3 => maskEg o
  | 4 => maskVx o
  | 5 => maskTw o
  | 6 => maskDb o
  | 7 => maskPf o
  | 8 => maskPm o
  | 9 => maskSe o
  | 10 => maskIc o
  | 11 => maskSc o
  | 12 => maskWd o
  | _ => none

/-- A plain register stored: its RW fields take the written bits (R7). -/
def State.store (s : State) (die off : Nat) (m w : Word) : State := s.setReg die off ((s.reg die off &&& ~~~m) ||| (w &&& m))

/-- The status word of a mailbox (R381). -/
def State.mboxStatus (s : State) (die : Nat) : Word :=
  let d := s.die die
  (s.reg die (mbox 8) &&& 0x40FFFFFF) ||| word (2 ^ 31 * d.mboxBusy.toNat + 2 ^ 24 * d.events.length)

/-- What a read of a register returns (R6, R7). PM_STATE, which both windows show (R402), is the higher state of the two, that with
the lower number (log 78). -/
def State.readReg (s : State) (die off : Nat) : Word :=
  match regMask off with
  | none => 0
  | some _ =>
    if off = pmBase + 4 then word (min s.die0.power.st s.die1.power.st)
    else if off = mbox 8 then s.mboxStatus die
    else if dpPoolUsed 0 ≤ off && off < dpPoolUsed 16 then word (s.poolUsed die (some ((off - dpPoolUsed 0) / 4)))
    else s.reg die off

/-! ### Queues -/

/-- The state of a queue (R352). -/
def State.queueState (s : State) (die q : Nat) : Nat := s.regN die (pkQ q 0x14) % 4

/-- A packet of a queue is in progress (R357). -/
def State.inProgress (s : State) (die q : Nat) : Bool := (s.packet? die q).isSome

/-- Grids of a queue that have not been reported complete. -/
def State.queueOpen (s : State) (die q : Nat) : Bool :=
  s.grids.any fun k => k.die == die && k.queue == q && k.st != .complete

/-- Stop: once the packet in progress has been accepted or rejected (R353). -/
def State.queueStop (s : State) (die q : Nat) : State :=
  if s.queueState die q != 1 then s
  else if s.inProgress die q then
    s.mapPackets die fun l => l.map fun p => if p.queue == q then { p with stop := true } else p
  else s.setQueueState die q 2 0

/-- Terminate: the context ends with reason 0xF8: that of a queue in state 1 or 2, or of one in state 0 whose grids still run
(R353, R361). -/
def State.queueTerminate (s : State) (die q : Nat) : State :=
  let st := s.queueState die q
  if st = 1 || st = 2 || (st = 0 && s.queueOpen die q) then s.terminate die q 3 0xF8 else s

/-- Resume, from state 2, or from 3 once the grids of the terminated context have ended (R353). -/
def State.queueResume (s : State) (die q : Nat) : State :=
  if s.queueState die q = 2 || (s.queueState die q = 3 && !s.queueOpen die q) then s.setQueueState die q 1 0 else s

/-- Reset of both indices, in state 2 with no dispatched grid incomplete (R353). A packet in progress no longer advances the read
index. -/
def State.queueReset (s : State) (die q : Nat) : State :=
  if s.queueState die q = 2 && !s.queueOpen die q then
    ((s.mapPackets die fun l => l.map fun p => if p.queue == q then { p with stale := true } else p).setReg die
      (pkQ q 0xC) 0).setReg die (pkQ q 0x10) 0
  else s

/-- PK_QCTL: the bits of one write act in the order stop, terminate, resume, reset (R353). -/
def State.queueControl (s : State) (die q : Nat) (w : Word) : State :=
  let s1 := if w.getLsbD 0 then s.queueStop die q else s
  let s2 := if w.getLsbD 3 then s1.queueTerminate die q else s1
  let s3 := if w.getLsbD 1 then s2.queueResume die q else s2
  if w.getLsbD 2 then s3.queueReset die q else s3

/-- The notify (R353): more packets than the ring holds stop the queue with reason 0x10. The stack wakes (R417). -/
def State.queueNotify (s : State) (die q : Nat) (w : Word) : State :=
  let i := w.toNat % 2 ^ 17
  let n := bits (s.regN die (pkQ q 8)) 20 16
  let s1 := (s.setRegN die (pkQ q 0xC) i).wake die
  if 2 ^ n < (i + 2 ^ 17 - s.regN die (pkQ q 0x10)) % 2 ^ 17 then s1.setQueueState die q 2 0x10 else s1

/-- The ring of a queue lies in the scene quota of the partition (R351). -/
def State.ringInQuota (s : State) (p : Part) (die q n : Nat) : Bool :=
  let base := s.regN die (pkQ q 0) / 64 * 64 + s.regN die (pkQ q 4) % 65536 * 2 ^ 32
  decide (65536 * p.sqBase ≤ base) && decide (base + 64 * 2 ^ n ≤ 65536 * p.sqLimit)

/-- PK_QCFG: size, owner and enable under the state's rules (R353). -/
def State.queueConfig (s : State) (die q : Nat) (w : Word) : State :=
  let st := s.queueState die q
  let n := bits w.toNat 20 16
  let s1 := s.store die (pkQ q 8) 0x1F010F w
  if st = 1 || st = 3 then s
  else if w.getLsbD 8 then
    match s.part? die (w.toNat % 16) with
    | none => s
    | some p => if 4 ≤ n && n ≤ 16 && s.ringInQuota p die q n then s1.setQueueState die q 1 0 else s
  else s1.setQueueState die q 0 0

/-- A write of a register of a queue (R352). -/
def State.writeQueue (s : State) (die q r : Nat) (w : Word) : State :=
  match r with
  | 0x00 => if s.queueState die q % 2 = 1 then s else s.store die (pkQ q 0) 0xFFFFFFC0 w
  | 0x04 => if s.queueState die q % 2 = 1 then s else s.store die (pkQ q 4) 0xFFFF w
  | 0x08 => s.queueConfig die q w
  | 0x0C => s.queueNotify die q w
  | 0x18 => s.queueControl die q w
  | _ => s

/-- PK_QWIDX_WRITE (R353). -/
def execPkQwidxWrite (die q : Nat) (w : Word) (s : State) : Host.Outcome State Fault Refusal := .next (s.queueNotify die q w)
/-- PK_QCFG_WRITE (R353). -/
def execPkQcfgWrite (die q : Nat) (w : Word) (s : State) : Host.Outcome State Fault Refusal := .next (s.queueConfig die q w)
/-- PK_QCTL_STOP (R353). -/
def execPkQctlStop (die q : Nat) (s : State) : Host.Outcome State Fault Refusal := .next (s.queueStop die q)
/-- PK_QCTL_TERMINATE (R353). -/
def execPkQctlTerminate (die q : Nat) (s : State) : Host.Outcome State Fault Refusal := .next (s.queueTerminate die q)
/-- PK_QCTL_RESUME (R353). -/
def execPkQctlResume (die q : Nat) (s : State) : Host.Outcome State Fault Refusal := .next (s.queueResume die q)
/-- PK_QCTL_RESET (R353). -/
def execPkQctlReset (die q : Nat) (s : State) : Host.Outcome State Fault Refusal := .next (s.queueReset die q)

/-! ### Semaphores and interrupts -/

/-- A semaphore set in one action (R377). Both windows show it, so both stacks wake (R417). -/
def State.semSet (s : State) (p n : Nat) (w : Word) : State := ((s.setReg 0 (pkSem p n) w).wake 0).wake 1

/-- PK_SEM_WRITE (R377). -/
def execPkSemWrite (p n : Nat) (w : Word) (s : State) : Host.Outcome State Fault Refusal := .next (s.semSet p n w)

/-- IC_CTL: clearing enable discards the pending count and stops the timer (R379). -/
def State.icControl (s : State) (die q : Nat) (w : Word) : State :=
  let s1 := s.store die (icQ q 0) 0x807FFFFF w
  if w.getLsbD 31 then s1 else s1.setCoalesce die q {}

/-- IC_CTL_WRITE (R379). -/
def execIcCtlWrite (die q : Nat) (w : Word) (s : State) : Host.Outcome State Fault Refusal := .next (s.icControl die q w)

/-! ### Partition descriptors -/

/-- The share of a stack, of its 128 bits. -/
def shareOf (d : Nat) : Share :=
  { cbHi := bits d 106 96, cbLo := bits d 90 80, sbSize := bits d 76 64, sbBase := bits d 60 48, enable := bitAt d 15
    rows := bits d 14 12 + 1, row0 := bits d 10 8, cols := bits d 7 4 + 1, col0 := bits d 3 0 }

/-- The partition that a descriptor describes (R346). -/
def partOfDesc (die num addr d : Nat) : Part :=
  { die := die, num := num, addr := addr, a := shareOf (bits d 383 256), b := shareOf (bits d 511 384), sqBase := bits d 223 192
    sqLimit := bits d 255 224, ringLog := bits d 183 176, ring := bits d 175 128, vector := bits d 111 64, root := bits d 47 0 }

/-- Every field of a share lies in its range (R346, R347); a range does not end before its start (log 32). -/
def shareOk (d : Nat) : Bool :=
  let x := shareOf d
  bits d 127 107 == 0 && bits d 95 91 == 0 && bits d 79 77 == 0 && bits d 63 61 == 0 && bits d 47 16 == 0 && !bitAt d 11 &&
  x.cbHi ≤ 1024 && x.cbLo ≤ x.cbHi && x.sbSize ≤ 7168 && x.sbBase + x.sbSize ≤ 7168 && x.row0 + x.rows ≤ 8 &&
  x.col0 + x.cols ≤ 16

/-- Two ranges of numbers meet. -/
def meets (a n b m : Nat) : Bool := decide (a < b + m) && decide (b < a + n) && n != 0 && m != 0

/-- Two shares of a stack overlap: cores, sample-buffer bytes, or column-bank bytes of a common column (R347). Rectangles count where both
shares are enabled: a choice of the model (log 148). -/
def Share.overlaps (x y : Share) : Bool :=
  let cols := meets x.col0 x.cols y.col0 y.cols
  (x.enable && y.enable && cols && meets x.row0 x.rows y.row0 y.rows) ||
  meets x.sbBase x.sbSize y.sbBase y.sbSize ||
  (cols && meets x.cbLo (x.cbHi - x.cbLo) y.cbLo (y.cbHi - y.cbLo))

/-- Two partitions overlap (R347). -/
def Part.overlaps (p x : Part) : Bool :=
  p.a.overlaps x.a || p.b.overlaps x.b || meets p.sqBase (p.sqLimit - p.sqBase) x.sqBase (x.sqLimit - x.sqBase)

/-- A descriptor at an address is valid for a partition (R340, R346, R347). One that reads as uncorrectable is not (R411; log 104), nor
one whose quota ends before its start or beyond scene memory (R1; log 32, 106). -/
def State.descOk (s : State) (die num addr : Nat) : Bool :=
  let d := s.sceneNat addr 128
  let p := partOfDesc die num addr d
  s.inProt die addr 128 && !s.poisoned .scene addr 128 && d / 2 ^ 512 == 0 && bits d 191 184 == 0 && bits d 127 112 == 0 && bits d 63 48 == 0 &&
  shareOk (bits d 383 256) && shareOk (bits d 511 384) && 4 ≤ p.ringLog && p.ringLog ≤ 16 && p.ring % 4096 == 0 &&
  s.inProt die p.ring (32 * 2 ^ p.ringLog) && p.root % 4096 == 0 && s.inProt die p.root 4096 &&
  decide (p.sqBase ≤ p.sqLimit) && decide (65536 * p.sqLimit ≤ Config.sceneBytes) &&
  s.parts.all fun x => x.num == num || !(p.overlaps x)

/-- A grid of a partition is queued, resident or pending (R347). -/
def State.partBusy (s : State) (num : Nat) : Bool :=
  (s.grids.any fun k => k.part == num && k.st != .complete) ||
  [0, 1].any fun die => (List.range 32).any fun q =>
    s.queuePart die q == num && (s.inProgress die q ||
      (s.queueState die q != 0 && s.regN die (pkQ q 0xC) != s.regN die (pkQ q 0x10)))

/-- The sample-buffer share of a partition on a stack is zeroed as it is granted: copies that the other stack forwards may reach it
before the first grid (R280, R283, R348). -/
def State.zeroSamples (s : State) (p : Part) : State :=
  let sh := p.share p.die
  s.clearMem .sample (p.die * 2 ^ 29 + 65536 * sh.sbBase) (65536 * sh.sbSize)

/-- A write of the low register of TW_PDADDR(p) acts (R347, R350). The translations of the partition leave the TLBs and the walker of the
stack, its virtual time starts at 0, and records that were held for want of a ring are written (R340, R349, R364). -/
def State.pdaddr (s0 : State) (die p : Nat) (w : Word) : State :=
  let s := s0.wake die
  let addr := w.toNat / 64 * 64 + s.regN die (twPdHi p) % 65536 * 2 ^ 32
  let refuse := fun (n : Nat) => s.setRegN die (twPdStatus p) n
  let s1 : State := s.store die (twPdLo p) 0xFFFFFFC1 w
  let others := s1.parts.filter fun x => !(x.die == die && x.num == p)
  let tlbs := s1.tlbs.filter fun t => !(t.die == die && t.part == p)
  let upper := s1.upper.filter fun u => !(u.die == die && u.part == p)
  if s.partBusy p then refuse 3
  else if w.getLsbD 0 then
    if s.descOk die p addr then
      let x := partOfDesc die p addr (s.sceneNat addr 128)
      let s2 := (({ s1 with parts := others ++ [x], tlbs := tlbs, upper := upper } : State).zeroSamples x).setRegN die (twPdStatus p) 1
      s2.drainRecords p s.heldRecords.length
    else refuse 2
  else ({ s1 with parts := others, tlbs := tlbs, upper := upper } : State).setRegN die (twPdStatus p) 0

/-- TW_PDADDR_WRITE (R347). -/
def execTwPdaddrWrite (die p : Nat) (w : Word) (s : State) : Host.Outcome State Fault Refusal := .next (s.pdaddr die p w)

/-- TW_FRTAIL: records are consumed, and held ones enter the ring (R340). -/
def State.frTail (s : State) (p : Nat) (w : Word) : State :=
  (s.setRegN 0 (twFrTail p) (w.toNat % 2 ^ 17)).drainRecords p s.heldRecords.length

/-- TW_FRTAIL_WRITE (R340). -/
def execTwFrtailWrite (p : Nat) (w : Word) (s : State) : Host.Outcome State Fault Refusal := .next (s.frTail p w)

/-- A write of TW_RESOLVE (R343, R350). -/
def State.resolve_ (s : State) (die : Nat) (w : Word) : State :=
  let n := w.toNat
  match bits n 21 20 with
  | 0 => s.resolveRetry die (bits n 19 16) (bits n 15 0)
  | 1 => s.resolveTerminate die (bits n 19 16) (bits n 15 0)
  | _ => s

/-- A write of a TW register by an application core (R350, R409). -/
def State.writeTw (s : State) (die o : Nat) (m w : Word) : State :=
  let off := twBase + o
  if o < 8 then (if s.parts.isEmpty then s.store die off m w else s)
  else if o = 8 then s.resolve_ die w
  else if o = 0x10 || o = 0x14 then (if s.regN 0 (twBase + 0x18) % 2 = 1 then s else s.store die off m w)
  else if 0x100 ≤ o && o < 0x180 then
    let p := (o - 0x100) / 8
    if o % 8 = 0 then s.pdaddr die p w
    else if (s.part? die p).isSome then s
    else s.store die off m w
  else if 0x200 ≤ o then s.frTail ((o - 0x200) / 4) w
  else s.store die off m w

/-! ### Egress, profiling -/

/-- The allowlist is locked (R407). -/
def State.locked (s : State) : Bool := s.regN 0 egLock % 2 == 1

/-- The lock is set, until module reset (R407). -/
def State.lockEg (s : State) (w : Word) : State := if s.locked then s else s.store 0 egLock 1 w

/-- EG_LOCK_WRITE (R407). -/
def execEgLockWrite (w : Word) (s : State) : Host.Outcome State Fault Refusal := .next (s.lockEg w)

/-- A write of an EG register (R403, R406, R407). -/
def State.writeEg (s : State) (die o : Nat) (m w : Word) : State :=
  if o = 0x800 then s.lockEg w
  else if (0x1000 ≤ o || (0x20 ≤ o && o < 0x40)) && s.locked then s
  else if (o = 8 || o = 12) && !s.parts.isEmpty then s
  else s.store die (egBase + o) m w

/-- PF_CTL: enable is set only where the ring lies in the protected range; the sampler then starts (R390). -/
def State.pfControl (s : State) (die : Nat) (m w : Word) : State :=
  let on := w.getLsbD 31
  let was := bitAt (s.regN die pfBase) 31
  let n := max 4 (min 16 (s.regN die (pfBase + 0x14)))
  if on && !s.inProt die (s.ringBase die (pfBase + 0xC)) (32 * 2 ^ n) then s
  else
    let s1 := s.store die pfBase m w
    let x := s1.regN die (pfBase + 8)
    let d := s1.die die
    if !on then s1.setDie die { d with sampler := { d.sampler with next := none } }
    else if was then s1
    else s1.setDie die { d with sampler := { next := some (s1.clk + s1.sampleGap die (if x = 0 then 1 else x)), count := 0 } }

/-! ### Attestation -/

/-- A request starts (R415): SE_ATTREQ as written, with the report's place. -/
def State.attReq (s : State) (w : Word) : State :=
  let s1 := (s.setReg 0 seBase w).setRegN 0 (seBase + 8) 1
  { s1 with attest := some (w.toNat, s.regN 0 (seBase + 4) % 2 ^ 28) }

/-- SE_ATTREQ_WRITE (R415). -/
def execSeAttreqWrite (w : Word) (s : State) : Host.Outcome State Fault Refusal := .next (s.attReq w)

/-- Exactly `n` bytes. -/
def fixBytes (n : Nat) (l : List Byte) : List Byte := (l ++ List.replicate n 0).take n

/-- `n` free bytes (log 4). -/
def State.freeBytes (s : State) (n : Nat) : List Byte × State :=
  (List.range (n / 4)).foldl (fun x _ => let (w, t) := x.2.takeFree; (x.1 ++ leBytes 4 w.toNat, t)) ([], s)

/-- Bytes of scene memory as the engine reads them: uncorrectable ones are free (R411, log 4). -/
def State.engineBytes (s : State) (a n : Nat) : List Byte × State :=
  if s.poisoned .scene a n then s.freeBytes n else (s.readMem .scene a n, s)

/-- The trap vector record as the engine reads it: bytes that cannot be read are free (log 4). -/
def State.vectorBytes (s : State) (p : Part) : List Byte × State :=
  match s.readBytes p.die p.num p.vector 64 with
  | .ok bs => (bs, s)
  | _ => s.freeBytes 64

/-- The 384 bytes of a report (R415). -/
def attReport (p : Part) (desc vector nonce : List Byte) (stime : Nat) : List Byte :=
  let d := fun (l : List Byte) => fixBytes 48 (Config.sha384 l)
  let body := d (Config.firmware 0) ++ d (Config.firmware 1) ++ d (Config.firmware 2) ++ d desc ++ d vector ++ nonce ++
    leBytes 4 p.num ++ leBytes 4 1 ++ leBytes 8 stime
  body ++ fixBytes 96 (Config.sign (d body))

/-- ATTESTATION_REPORT: the report is written, or the request refused (R415). -/
def execAttestationReport (s : State) : Host.Outcome State Fault Refusal :=
  match s.attest with
  | none => .next s
  | some (req, out) =>
    let done := fun (t : State) (n : Nat) => ({ t with attest := none } : State).setRegN 0 (seBase + 8) n
    match s.parts.find? fun p => p.num == req / 2 ^ 28 with
    | none => .next (done s 3)
    | some p =>
      let base := (s.protRange p.die).1
      let nonce := base + 64 * (req % 2 ^ 28)
      let rep := base + 64 * out
      if !(s.inProt p.die nonce 32) || !(s.inProt p.die rep 384) then .next (done s 4)
      else
        let (desc, s1) := s.engineBytes p.addr 128
        let (vec, s2) := s1.vectorBytes p
        let (non, s3) := s2.engineBytes nonce 32
        .next (done (s3.writeMem .scene rep (attReport p desc vec non s.stime)) 2)

/-- DEBUG_AUTHORISATION: SE_DBGCTL bit 0 is set (R416). -/
def execDebugAuthorisation (s : State) : Host.Outcome State Fault Refusal := .next (s.setReg 0 (seBase + 0x10) 1)

/-! ### The mailbox words -/

/-- Result words of a command, and its end (R381, R382). -/
def State.mboxDone (s : State) (die result : Nat) : State :=
  let s1 := s.setReg die (mbox 8) ((s.reg die (mbox 8) &&& 0x4000FFFF) ||| word (2 ^ 16 * result))
  s1.setDie die { s1.die die with mboxBusy := false }

/-- A command is started by a port, or ends at once: denied, or with a reserved field or opcode (R381, R382). -/
def State.mboxGo (s : State) (die port : Nat) (w : Word) : State :=
  let op := w.toNat % 256
  let s1 := s.setReg die (mbox 8) ((s.reg die (mbox 8) &&& 0x40FF0000) ||| word (256 * port + op))
  let s2 := s1.setDie die { s1.die die with mboxPort := port, mboxBusy := true }
  if !bitAt (s.regN die dbEnable) (bits w.toNat 15 12) then s2.mboxDone die 1
  else if w &&& 0x7FFF0F00 != 0 || op = 0 || 12 < op then s2.mboxDone die 4
  else s2

/-- A write of a mailbox word from a port (R380, R381). -/
def State.mboxWrite (s : State) (die port n : Nat) (w : Word) : State :=
  if n < 8 then
    if (s.die die).mboxBusy then s
    else
      let s1 := s.setReg die (mbox n) (if n = 0 then w &&& 0xF0FF else w)
      if n = 0 && w.getLsbD 31 then s1.mboxGo die port w else s1
  else if n = 8 then
    if w.getLsbD 30 then s.setReg die (mbox 8) (s.reg die (mbox 8) &&& 0x3FFFFFFF) else s
  else s

/-! ### A write from outside -/

/-- One 32-bit write of a register (R6, R7). TW registers, semaphores and DB_ENABLE take writes of application cores only
(R349, R377, R416), and the mailbox takes those of its two ports only, of which the IEEE 1149.1 port reaches nothing else (R380). -/
def State.writeReg (s : State) (die off : Nat) (w : Word) (src : Source) : State :=
  match regMask off with
  | none => s
  | some m =>
    let o := off % 0x100000
    if src = .jtag then s
    else
      match off / 0x100000 with
      | 0 =>
        if o < 0x4000 then s.writeQueue die ((o - 0x1000) / 0x40) (o % 0x40) w
        else if src = .app then s.semSet ((o - 0x4000) / 0x100) (o % 0x100 / 4) w
        else s
      | 3 => s.writeEg die o m w
      | 5 => if src = .app then s.writeTw die o m w else s
      | 6 =>
        if o < 0x40 then (if src = .app then s.mboxWrite die 0 (o / 4) w else s)
        else if o = 0x40 && src != .app then s
        else s.store die off m w
      | 7 => if o = 0 then s.pfControl die m w else s.store die off m w
      | 9 => if o = 0 then s.attReq w else s.store die off m w
      | 10 => if o < 0x300 && o % 16 = 0 then s.icControl die ((o - 0x100) / 16) w else s.store die off m w
      | _ => s.store die off m w

/-- A write of 32 or 64 bits; a 64-bit one acts as two, the low register first, but that of TW_PDADDR takes the high word
first (R6, R350). Any other size or alignment is dropped. -/
def State.writeRegs (s : State) (die off size : Nat) (v : DWord) (src : Source) : State :=
  if size = 4 && off % 4 = 0 then s.writeReg die off (loWord v) src
  else if size = 8 && off % 8 = 0 then
    if twPdLo 0 ≤ off && off < twPdLo 16 then (s.writeReg die (off + 4) (hiWord v) src).writeReg die off (loWord v) src
    else (s.writeReg die off (loWord v) src).writeReg die (off + 4) (hiWord v) src
  else s

/-- REGISTER_WRITE (R6, R7). -/
def execRegisterWrite (die off size : Nat) (v : DWord) (src : Source) (s : State) : Host.Outcome State Fault Refusal :=
  .next (s.writeRegs die off size v src)

end Sys2Proof.Machine
end

