-- ==== Sys2Proof/Machine/Mailbox.lean ====
section
/-! DEFINITION. The debug mailbox: the twelve commands (R381, R382, R386 to R388, R394), and the IEEE 1149.1 port (R380). -/
namespace Sys2Proof.Machine

/-- Word `n` of a mailbox. -/
def State.mboxN (s : State) (die n : Nat) : Nat := s.regN die (mbox n)

/-- A command that runs on a stack is carried out: its partition is the one in word 0, and what it answers is its result
(R381, R382). -/
def State.command (s : State) (die op : Nat) (f : State → Nat → State × Nat) : State :=
  if !(s.die die).mboxBusy || s.mboxN die 0 % 256 != op then s
  else
    let r := f s (bits (s.mboxN die 0) 15 12)
    r.1.mboxDone die r.2

/-! ### Targets -/

/-- The group that word 1 names, where it is resident and of the partition (R381). -/
def State.target? (s : State) (die part : Nat) : Option Group :=
  s.groups.find? fun g =>
    g.die == die && g.gid == s.mboxN die 1 % 2 ^ 13 && s.partOf g == part && !g.exited

/-- A bit of word 1 outside its two fields is set (R381). -/
def State.targetReserved (s : State) (die : Nat) : Bool :=
  bits (s.mboxN die 1) 15 13 != 0 || s.mboxN die 1 / 2 ^ 19 != 0

/-- A stream of a group is there: the scalar stream, or a path in the slot. -/
def Group.hasStream (g : Group) (n : Nat) : Bool := n == 3 || (g.k.path (n == 1)).st != .free

/-- The streams that word 1 selects: 0 and 1 the slots, 3 the scalar stream, 4 the whole group but free slots. -/
def Group.selected (g : Group) (sel : Nat) : List Nat := if sel = 4 then [3, 0, 1].filter g.hasStream else [sel]

/-- A command on the streams of a group: result 4 for a reserved bit or selector, 2 where there is no such group or path. -/
def State.onStreams (s : State) (die part : Nat) (f : State → Group → List Nat → State × Nat) : State × Nat :=
  let w := s.mboxN die 1
  let sel := bits w 18 16
  if s.targetReserved die || !([0, 1, 3, 4].contains sel) then (s, 4)
  else
    match s.target? die part with
    | none => (s, 2)
    | some g => if !g.hasStream sel && sel != 4 then (s, 2) else f s g (g.selected sel)

/-- A command on the words of a group: a free slot is no stopped one, whatever slot word 1 names (R394). -/
def State.onWords (s : State) (die part : Nat) (f : State → Group → State × Nat) : State × Nat :=
  let sel := bits (s.mboxN die 1) 18 16
  if s.targetReserved die || !([0, 1, 3, 4].contains sel) then (s, 4)
  else
    match s.target? die part with
    | none => (s, 2)
    | some g => f s g

/-- The position of a stream. -/
def Group.position (g : Group) (n : Nat) : Nat := if n = 3 then g.k.pc.toNat else (g.k.path (n == 1)).pc

/-- The scalar stream leaves the wait in which it stands, to enter it again; what a `bar` has arrived at stays (R165, R394). A
handler's stream is not stopped. -/
def Group.leaveWait (g : Group) : Group :=
  if g.inHandler then g
  else { g with inJoin := false, barW := none, waitPeer := none, waitSince := 0, waitLost := false, waitMesh := false, whyS := some 0 }

/-- One stream is halted: it stops at its boundary with a kind-4 event; one that is stopped already gives none, and a wait is
abandoned (R382, R386, R394). -/
def State.haltStream (s : State) (u n : Nat) : State :=
  match s.group? u with
  | none => s
  | some g =>
    let x := g.stop n
    let p := g.k.path (n == 1)
    if x.stopped then s
    else if n = 3 || (p.st == .running && (p.left == 0 || p.atTrap) && p.park.isNone && g.parkWhole.isNone) || p.st == .arrived then
      let g' := if n = 3 then g.leaveWait else g
      let es := g.dueEvents n
      ((s.stopEvents g n es).event g n 4 0 0 0).setGroup (g'.setStop n
        { x.without es with stopped := true, step := false, trapEach := false, kind := 4 })
    else s.setGroup (g.setStop n { x with halt := true, step := false, trapEach := false, kind := 4, events := x.events ++ [(g.nextOp, 4, 0, 0, 0)] })

/-- HALT (R382). -/
def execHalt (die : Nat) (s : State) : Host.Outcome State Fault Refusal :=
  .next (s.command die 1 fun s p => s.onStreams die p fun s g ns => (ns.foldl (fun t n => t.haltStream g.uid n) s, 0))

/-- One stop ends; the stream skips breakpoint matching once at its place (R382). -/
def Group.goStream (g : Group) (n : Nat) : Group :=
  let x := g.stop n
  if x.stopped then g.setStop n { x with stopped := false, skip := some (g.position n) } else g

/-- GO (R382). Paths that have arrived merge once no stop holds them (R224, R386). -/
def execGo (die : Nat) (s : State) : Host.Outcome State Fault Refusal :=
  .next (s.command die 2 fun s p => s.onStreams die p fun s g ns => ((s.setGroup (ns.foldl Group.goStream g)).rejoin g.uid 0, 0))

/-- One stopped stream may issue one instruction (R388). -/
def Group.stepStream (g : Group) (trap : Bool) (n : Nat) : Group :=
  g.setStop n { g.stop n with stopped := false, step := true, trapEach := trap, skip := some (g.position n) }

/-- STEP (R382, R388). -/
def execStep (die : Nat) (s : State) : Host.Outcome State Fault Refusal :=
  .next (s.command die 3 fun s p => s.onStreams die p fun s g ns =>
    if ns.all fun n => (g.stop n).stopped then
      ((s.setGroup (ns.foldl (fun g n => g.stepStream (bitAt (s.mboxN die 2) 0) n) g)).rejoin g.uid 0, 0)
    else (s, 3))

/-! ### Words of a group -/

/-- The scalar stream and both slots hold stopped streams (R382, R394). -/
def Group.allStopped (g : Group) : Bool :=
  g.stopS.stopped && g.hasStream 0 && g.stop0.stopped && g.hasStream 1 && g.stop1.stopped

/-- The word that READ returns, none where the selector or index is reserved (R316, R382). -/
def State.debugWord (s : State) (g : Group) (sel i : Nat) : Option Word :=
  if sel < 7 then (if s.inExtent g sel i then some (s.prdWord g sel i) else none)
  else if sel = 0x80 then (if i < 32 * g.vwin then some (Cells.get 0 g.vreg i) else none)
  else if sel = 0x81 then (if i < g.uwin then some (if i = 0 then 0 else Cells.get 0 g.ureg i) else none)
  else none

/-- READ (R382). -/
def execRead (die : Nat) (s : State) : Host.Outcome State Fault Refusal :=
  .next (s.command die 4 fun s p => s.onWords die p fun s g =>
    if !g.allStopped then (s, 3)
    else
      match s.debugWord g (s.mboxN die 2) (s.mboxN die 3) with
      | none => (s, 4)
      | some w => (s.setReg die (mbox 9) w, 0))

/-- The group with a word written by WRITE, none where it takes no write (R382). Fixed-latency writes of the paths have
been issued before, so they are made first. -/
def Group.debugWrite (g : Group) (sel i : Nat) (w : Word) : Option Group :=
  if sel = 0x80 then (if i < 32 * g.vwin then some { g with vreg := Cells.set 0 g.vreg i w } else none)
  else if sel = 0x81 then (if i < g.uwin then some (if i = 0 then g else { g with ureg := Cells.set 0 g.ureg i w }) else none)
  else if sel = 0 && (i = 0 || i = 38 || (96 ≤ i && i < 128)) then some (g.setControl i w)
  else none

/-- WRITE (R382). -/
def execWrite (die : Nat) (s : State) : Host.Outcome State Fault Refusal :=
  .next (s.command die 5 fun s p => s.onWords die p fun s g =>
    if !g.allStopped then (s, 3)
    else
      match g.debugWrite (s.mboxN die 2) (s.mboxN die 3) (s.reg die (mbox 4)) with
      | none => (s, 4)
      | some g' => (s.setGroup g', 0))

/-! ### Events -/

/-- The seven words of an event record (R383). -/
def Event.words (e : Event) : List Word :=
  [word (e.kind + 2 ^ 8 * e.slot + 2 ^ 12 * e.part + 2 ^ 16 * e.gid), e.address, e.mask, e.pc, word (e.laneIndex % 65536), e.info,
   e.clk]

/-- POP (R382, R383). -/
def execPop (die : Nat) (s : State) : Host.Outcome State Fault Refusal :=
  .next (s.command die 6 fun s p =>
    let d := s.die die
    match d.events.find? fun e => e.part == p with
    | none => (s, 6)
    | some e =>
      let s1 := s.setDie die { d with events := d.events.erase e }
      (((List.range 7).zip e.words).foldl (fun t x => t.setReg die (mbox (9 + x.1)) x.2) s1, 0))

/-! ### Memory -/

/-- Where a MEMRD or MEMWR goes: through the partition's page tables, or into a scratchpad by the slice window; else the
trap or record code (R49, R57, R382). -/
def State.debugAt (s : State) (die part va : Nat) (write : Bool) : Loc ⊕ Nat :=
  if 2 ^ 48 ≤ va then .inr Code.accessViolation.num
  else if winBase ≤ va then
    let o := va - winBase
    if o < 2 ^ 29 then
      (if (s.ownerOf part (bits o 28 28) (bits o 27 21) (bits o 20 0)).isSome &&
          (s.ownerOf part (bits o 28 28) (bits o 27 21) (bits o 20 0 + 3)).isSome then
        .inl (.mem .core (coreKey (bits o 28 28) (bits o 27 21) (bits o 20 0)))
      else .inr Code.sliceUnmapped.num)
    else .inr Code.accessViolation.num
  else
    match s.reach die part va write with
    | .inl l => .inl l
    | .inr (.record c _) => .inr c
    | .inr (.refused c _) => .inr c.num
    | .inr (.ok _) => .inr Code.accessViolation.num

/-- A debug access of the word at the address in words 2 and 3. -/
def State.debugMem (s : State) (die part : Nat) (write : Bool) : State × Nat :=
  let va := s.mboxN die 2 + 2 ^ 32 * s.mboxN die 3
  if va % 4 ≠ 0 then (s, 4)
  else
    match s.debugAt die part va write with
    | .inr c => (s.setRegN die (mbox 9) c, 5)
    | .inl (.mem sp a) =>
      if write then (s.writeMem sp a (leBytes 4 (s.mboxN die 4)), 0)
      else if s.poisoned sp a 4 then (s.setRegN die (mbox 9) Code.uncorrectable.num, 5)
      else (s.setRegN die (mbox 9) (leNat (s.readMem sp a 4)), 0)
    | .inl _ => (s.setRegN die (mbox 9) Code.accessViolation.num, 5)

/-- MEMRD (R382). -/
def execMemrd (die : Nat) (s : State) : Host.Outcome State Fault Refusal :=
  .next (s.command die 7 fun s p => s.debugMem die p false)

/-- MEMWR (R382). -/
def execMemwr (die : Nat) (s : State) : Host.Outcome State Fault Refusal :=
  .next (s.command die 8 fun s p => s.debugMem die p true)

/-! ### Queries and registers -/

/-- The state of a slot as QUERY gives it: the paths of a group parked whole are parked (R26, R382). -/
def Group.slotState (g : Group) (slot : Bool) : Nat :=
  let p := g.k.path slot
  if p.st == .free then 0 else if (g.stop slot.toNat).stopped then 2 
  else if p.st == .parked || p.park.isSome || g.parkWhole.isSome then 3 else 1

/-- The kind of a group's stop: that of the last one, while a stream is stopped (R382, log 31). -/
def Group.stopKind (g : Group) : Nat :=
  if g.stopS.stopped || g.stop0.stopped || g.stop1.stopped then g.lastStop else 0

/-- QUERY (R382). -/
def execQuery (die : Nat) (s : State) : Host.Outcome State Fault Refusal :=
  .next (s.command die 9 fun s p =>
    if s.targetReserved die then (s, 4)
    else match s.target? die p with
    | none => (s, 2)
    | some g =>
      let w := g.stopS.stopped.toNat + 2 * g.slotState false + 8 * g.slotState true + 256 * (g.stopKind % 8)
      (((s.setRegN die (mbox 9) w).setReg die (mbox 10) g.k.pc).setRegN die (mbox 11) (g.k.p0.pc % 65536 + g.k.p1.pc % 65536 * 65536), 0))

/-- The register that word 2 names lies among the DB registers at or above DB + 0x040 (R381). -/
def dbReachable (o : Nat) : Bool := 0x40 ≤ o && o < 0x100000 && (regMask (dbBase + o)).isSome

/-- RREG (R382). -/
def execRreg (die : Nat) (s : State) : Host.Outcome State Fault Refusal :=
  .next (s.command die 10 fun s _ =>
    let o := s.mboxN die 2
    if dbReachable o then (s.setReg die (mbox 9) (s.readReg die (dbBase + o)), 0) else (s, 1))

/-- WREG: one of DB_ENABLE from the IEEE 1149.1 port is denied (R381, R382). -/
def execWreg (die : Nat) (s : State) : Host.Outcome State Fault Refusal :=
  .next (s.command die 11 fun s _ =>
    let o := s.mboxN die 2
    if !dbReachable o || (o = 0x40 && (s.die die).mboxPort = 1) then (s, 1)
    else (s.writeReg die (dbBase + o) (s.reg die (mbox 3)) .app, 0))

/-- FIND (R382): the group of the oldest resident grid of a queue whose packet carried a tag. -/
def execFind (die : Nat) (s : State) : Host.Outcome State Fault Refusal :=
  .next (s.command die 12 fun s p =>
    let w := s.mboxN die 2
    let ks := s.grids.filter fun k => k.die == die && k.part == p && k.queue == w % 32 && k.tag == w / 65536 &&
      s.blocks.any fun b => b.grid == k.uid && !(s.groupsOf b.uid).isEmpty
    match (sortRank (fun (k : Grid) => [k.arrival]) ks).head? with
    | none => (s, 2)
    | some k =>
      match s.groups.find? fun g =>
        (s.blockOf g).grid == k.uid && (s.blockOf g).index == s.mboxN die 3 && g.index == s.mboxN die 4 && !g.exited with
      | none => (s, 2)
      | some g => (s.setRegN die (mbox 9) g.gid, 0))

/-! ### The IEEE 1149.1 port -/

/-- MBOXACC_UPDATE: an update performs the access it names, and what the next scan captures is the word that it addressed; the
port works only while SE_DBGCTL bit 0 is set (R380, R416). The capture of this scan leaves with it. -/
def execMboxaccUpdate (data : BitVec 40) (s : State) : Host.Outcome State Fault Refusal :=
  if s.regN 0 (seBase + 0x10) % 2 = 0 then .next s
  else
    let d := data.toNat
    let die := bits d 38 38
    let n := bits d 37 34
    let s1 : State := { s with out := s.out ++ [.scan s.scan] }
    let s2 := if bitAt d 39 then s1.mboxWrite die 1 n (word d) else s1
    .next { s2 with scan := s2.readReg die (mbox n) }

end Sys2Proof.Machine
end

