-- ==== Sys2Proof/Machine/Outside.lean ====
section
/-! DEFINITION. What comes from outside the stacks: application cores and PCIe devices (R6, R87, R409), the clocks (R403), the
links and frames (R408, R410), scrubbing and memory errors (R410 to R413), module reset (R414, R419); and moves of blocks and
sessions (R327 to R330). -/
namespace Sys2Proof.Machine

/-! ### Accesses -/

/-- The registers that an access of a window covers are read (R6). -/
def State.readRegs (s : State) (die off n : Nat) : List Byte :=
  if n = 4 && off % 4 = 0 then leBytes 4 (s.readReg die off).toNat
  else if n = 8 && off % 8 = 0 then leBytes 4 (s.readReg die off).toNat ++ leBytes 4 (s.readReg die (off + 4)).toNat
  else List.replicate n 0

/-- The bytes of a load from outside: none where scene memory does not hold them (log 106) or they read as uncorrectable (R411). -/
def State.sceneLoad (s : State) (a n : Nat) : Option (List Byte) :=
  if Config.sceneBytes < a + n || s.poisoned .scene a n then none else some (s.readMem .scene a n)

/-- A store from outside: bytes that scene memory does not hold are dropped (log 106). -/
def State.sceneStore (s : State) (a : Nat) (bs : List Byte) : State :=
  s.writeMem .scene a (bs.take (Config.sceneBytes - a))

/-- APPLICATION_CORE_ACCESS: a load or store at the scene cache, or of a register window (R6, R87). -/
def execApplicationCoreAccess (a : OuterAccess) (s : State) : Host.Outcome State Fault Refusal :=
  let load := fun (d : Option (List Byte)) => ({ s with out := s.out ++ [.load d] } : State)
  match a.place with
  | .imsic => .next s
  | .scene =>
    if a.bytes.isEmpty then .next (load (s.sceneLoad a.addr a.n))
    else .next (s.sceneStore a.addr a.bytes)
  | .window die =>
    if a.bytes.isEmpty then .next (load (some (s.readRegs die a.addr a.n)))
    else .next (s.writeRegs die a.addr a.bytes.length (BitVec.ofNat 64 (leNat a.bytes)) .app)

/-- The root port lets a request through (R409). -/
def State.pcieAllowed (s : State) (a n : Nat) : Bool :=
  s.regN 0 (twBase + 0x18) % 2 == 1 && decide (65536 * s.regN 0 (twBase + 0x10) ≤ a) &&
  decide (a + n ≤ 65536 * s.regN 0 (twBase + 0x14)) && !s.meetsProt 0 a n && !s.meetsProt 1 a n

/-- PCIE_DOWNSTREAM_REQUEST: an interrupt message to an IMSIC is delivered; another request is performed inside the window, else
refused and counted (R409). -/
def execPcieDownstreamRequest (a : OuterAccess) (s : State) : Host.Outcome State Fault Refusal :=
  let answer := fun (t : State) (d : Option (List Byte)) => ({ t with out := t.out ++ [.pcie d] } : State)
  let n := if a.bytes.isEmpty then a.n else a.bytes.length
  if a.place = .imsic && !a.bytes.isEmpty then .next (s.msi a.addr (leNat a.bytes))
  else if a.place = .scene && s.pcieAllowed a.addr n then
    (if a.bytes.isEmpty then .next (answer s (s.sceneLoad a.addr n)) else .next (s.sceneStore a.addr a.bytes))
  else
    let s1 := s.setRegN 0 (twBase + 0x1C) (s.regN 0 (twBase + 0x1C) + 1)
    if a.bytes.isEmpty then .next (answer s1 none) else .next s1

/-! ### Clocks, links, frames -/

/-- PTP_CORRECTION: a port's clock is corrected; session time follows a step forward at once, and a step backward by slewing
(R403). -/
def execPtpCorrection (port : Nat) (delta : Int) (s : State) : Host.Outcome State Fault Refusal :=
  let fix := fun (p : Port) => { p with ptp := ((p.ptp : Int) + delta).toNat }
  let s1 : State := if port = 0 then { s with port0 := fix s.port0 } else { s with port1 := fix s.port1 }
  .next { s1 with stime := max s1.stime s1.wantedTime }

/-- A counter register rises by one. -/
def State.countReg (s : State) (die off : Nat) : State := s.setRegN die off (s.regN die off + 1)

/-- A link retrains (R408). -/
def State.retrain (s : State) (die : Nat) : State :=
  (s.countReg die (vxBase + 0x24)).setDie die { s.die die with retrain := true, replays := 0 }

/-- VIADUCT_RETRAIN (R408). -/
def execViaductRetrain (die : Nat) (s : State) : Host.Outcome State Fault Refusal := .next (s.retrain die)

/-- VIADUCT_RETRAIN_END (R408). -/
def execViaductRetrainEnd (die : Nat) (s : State) : Host.Outcome State Fault Refusal :=
  .next (s.setDie die { s.die die with retrain := false })

/-- VIADUCT_FLIT_REPLAY: a flit is replayed up to 8 times, then the link retrains. Replays between which nothing has crossed the links
are of one flit, a choice of the model (R408, log 141). -/
def execViaductFlitReplay (die : Nat) (s : State) : Host.Outcome State Fault Refusal :=
  let d := s.die die
  if 8 ≤ d.replays then .next (s.retrain die)
  else .next ((s.countReg die (vxBase + 0x20)).setDie die { d with replays := d.replays + 1 })

/-- ETHERNET_FRAME_RECEIVED: a frame whose check sequence fails is discarded and counted (R410). -/
def execEthernetFrameReceived (port : Nat) (good : Bool) (s : State) : Host.Outcome State Fault Refusal :=
  let f := fun (p : Port) => if good then p else { p with errors := p.errors + 1 }
  .next (if port = 0 then { s with port0 := f s.port0 } else { s with port1 := f s.port1 })

/-! ### Memory errors -/

/-- The stack whose scrub registers count a word: scene memory is counted on stack A. -/
def State.scrubDie (s : State) (m : Space) (a : Nat) : Nat :=
  match m with
  | .scene => 0
  | .core => a / 2 ^ 28 % 2
  | .bank => a / 2 ^ 26 % 2
  | .sample => a / 2 ^ 29 % 2
  | .uniform | .tile | .stream => ((s.group? (a / 2 ^ 20)).map (·.die)).getD 0

/-- A scrub of a word: a correction is counted and writes back the value that the word has; an uncorrectable word is counted
and poisoned (R410 to R413). -/
def State.scrub (s : State) (m : Space) (a : Nat) (f : EccFinding) : State :=
  let die := s.scrubDie m a
  let w := a / 8 * 8
  match f with
  | .clean => s
  | .corrected => s.countReg die (scBase + 0x10)
  | .uncorrectable =>
    { s.countReg die (scBase + 0x14) with poison := if s.poison.contains (m, w) then s.poison else (m, w) :: s.poison }

/-- SRAM_SCRUB (R412, R413). -/
def execSramScrub (m : Space) (addr : Nat) (f : EccFinding) (s : State) : Host.Outcome State Fault Refusal :=
  .next (s.scrub m addr f)

/-- LPDDR_SCRUB (R412, R413). -/
def execLpddrScrub (addr : Nat) (f : EccFinding) (s : State) : Host.Outcome State Fault Refusal :=
  .next (s.scrub .scene addr f)

/-! ### Reset -/

/-- An image passes the checks of the boot ROM (R414). -/
def bootAccepts (x : BootImage) : Bool :=
  x.signed && decide (x.keyHash = Config.fusedKeyHash) && decide (Config.rollbackCounter ≤ x.version)

/-- A stack whose compute and base tiers are off (R414, R417). -/
def unpowered : Die := { power := { st := 3 } }

/-- MODULE_RESET: everything takes its reset value; scene memory, which no rule clears, keeps its bytes, and what has left the
module stays sent. One of the three firmware images that fails a check leaves the module in recovery, its stacks unpowered (R414,
R419). -/
def execModuleReset (images : List BootImage) (s : State) : Host.Outcome State Fault Refusal :=
  let good := decide (images.length = 3) && images.all bootAccepts
  .next { State.reset with
    scene := s.scene, poison := s.poison.filter fun p => p.1 == .scene, out := s.out, inputs := s.inputs
    free := s.free, recovery := !good
    die0 := if good then {} else unpowered, die1 := if good then {} else unpowered }

/-! ### Moving a block -/

/-- The uncorrectable words of a run stay so where it is copied to. -/
def State.carryPoison (s : State) (sp : Space) (src dst n : Nat) : State :=
  { s with poison := ((s.poison.filter fun p => p.1 == sp && decide (src ≤ p.2) && decide (p.2 < src + n)).map
      fun p => (sp, p.2 - src + dst)) ++ s.poison }

/-- A run of bytes is copied, with its uncorrectable words. -/
def State.carry (s : State) (sp : Space) (src dst n : Nat) : State :=
  (s.writeMem sp dst (s.readMem sp src n)).carryPoison sp src dst n

/-- A started copy of the block reads or writes its own-column allocation: the move waits for it (R329). -/
def State.columnCopies (s : State) (b : Block) : Bool :=
  s.copies.any fun c =>
    c.owner / 192 == b.uid && c.st == .started &&
    [c.src, c.dst].any fun a => winBase + 0x8000000000 ≤ a && a < winBase + 0x8000000000 + 2 ^ 21

/-- The groups of a frozen block stand at their boundaries, and what they issued has completed or is held (R32, R329). -/
def State.settled (s : State) (b : Block) : Bool :=
  !s.columnCopies b &&
  (s.groupsOf b.uid).all fun g =>
    (g.ops.all fun o => (s.releaseHeld g o).savedAsIs) && !s.partnerBusy g && !(s.forwards.any fun f => f.group == g.uid) &&
    pathStopped g.ctx.p0 false false && pathStopped g.ctx.p1 false false

/-- A group takes a new seat: its stream segments move with it; none where one does not fit there. -/
def State.reseat (s : State) (g : Group) (x : Seat) : Option Group :=
  let g1 := { g with core := x.core, quarter := x.quarter, rslot := x.rslot, vbase := x.vbase }
  [0, 1, 2].foldl (fun (o : Option Group) n =>
    match o with
    | none => none
    | some h =>
      match g.seg n with
      | none => some h
      | some y => (s.grantSeg { h with segA := none, segB := none, segM := none } n y.len).map fun t =>
          h.setSeg n ((t.seg n).map fun z => { y with base := z.base })) (some g1)

/-- The groups of a block on their new seats. -/
def State.reseatAll (s : State) : List (Group × Seat) → Option State
  | [] => some s
  | (g, x) :: t =>
    match s.reseat g x with
    | none => none
    | some g' =>
      ((s.carryPoison .core g.windowKey g'.windowKey (128 * g.vwin)).setGroup g').reseatAll t

/-- The block is moved to the span at a core: scratchpad, own-column allocation, groups and unstarted requests (R329). -/
def State.moveTo (s : State) (k : Grid) (b : Block) (a : Alloc) : Option State :=
  let s1 := s.giveAlloc k a
  let s2 := (List.range b.span).foldl (fun t i =>
    let x := b.shares.getD i (0, 0)
    t.carry .core (coreKey b.die (b.core + i) x.1) (coreKey b.die (a.core + i) (a.shares.getD i (0, 0)).1) x.2) s1
  let s3 := (List.range b.span).foldl (fun t i =>
    t.carry .bank (bankKey b.die (coreCol b.core + i) (b.cols.getD i 0)) (bankKey b.die (coreCol a.core + i) (a.cols.getD i 0))
      b.colBytes) s2
  let s4 : State := { s3 with copies := s3.copies.map fun c =>
    if c.owner / 192 == b.uid && c.st == .queued then { c with core := c.core - b.core + a.core } else c }
  let s5 := s4.modBlock b.uid fun x => { x with
    st := .resident, core := a.core, shares := a.shares, cols := a.cols, barSlots := x.nBar }
  s5.reseatAll ((s5.groupsOf b.uid).filterMap fun g => (a.seats.find? fun x => x.1 == g.index).map fun x => (g, x.2))

/-- The place of a block on cores of other columns, beside everything that is placed (R329). -/
def State.movePlace (s : State) (b : Block) (core : Nat) : Option (Grid × Alloc) :=
  match s.grid? b.grid with
  | none => none
  | some k =>
    match s.part? k.die k.part, k.variants[b.variant]? with
    | some p, some v =>
      if !p.cores.contains core || !p.spanFits core b.span || coreCol core == coreCol b.core then none
      else (s.tryPlace (fun _ => true) k v core b.nBar ((s.groupsOf b.uid).map (·.index))).map fun a => (k, a)
    | _, _ => none

/-- Clocks of 10 ms (R412). -/
def moveClks : Nat := 10000 * clkPerUs

/-- No block has left or reached the columns of a move in the last 10 ms: at most one move per column in that time (R412). -/
def State.moveDue (s : State) (die : Nat) (cols : List Nat) : Bool :=
  (s.die die).moves.all fun m => !cols.contains m.1 || decide (m.2 + moveClks ≤ s.clk)

/-- A move of the columns is noted. -/
def State.noteMove (s : State) (die : Nat) (cols : List Nat) : State :=
  let d := s.die die
  s.setDie die { d with moves := cols.map (fun c => (c, s.clk)) ++ d.moves.filter fun m => s.clk < m.2 + moveClks }

/-- THERMAL_BLOCK_MOVE: at most one in a column in 10 ms (R412); the block freezes; once it has settled it moves and goes on; where there is no place it goes on where
it is (R329, R330). -/
def execThermalBlockMove (b core : Nat) (s : State) : Host.Outcome State Fault Refusal :=
  match s.block? b with
  | none => .next s
  | some x =>
    let again := fun (t : State) => ({ t with inputs := t.inputs ++ [(t.clk + 1, .thermalBlockMove b core)] } : State)
    if x.st = .resident then
      let cols := ((upFrom x.core x.span ++ upFrom core x.span).map coreCol).eraseDups
      (if (s.movePlace x core).isSome && x.req.isNone && (s.groupsOf b).all (·.preempt.isNone) && s.moveDue x.die cols then
        .next (again ((s.modBlock b fun y => { y with st := .frozen }).noteMove x.die cols))
      else .next s)
    else if x.st = .frozen then
      (if !s.settled x then .next (again s)
      else
        let stay := s.modBlock b fun y => { y with st := .resident }
        match s.movePlace x core with
        | none => .next stay
        | some (k, a) => .next ((s.moveTo k x a).getD stay))
    else .next s

/-! ### Moving a session -/

/-- A change of a partition on both stacks. -/
def State.modPart (s : State) (p : Nat) (f : Part → Part) : State :=
  { s with parts := s.parts.map fun x => if x.num == p then f x else x }

/-- Pending-pool records of a partition, in pool order (R327). -/
def State.poolOf (s : State) (p : Nat) : List Grid :=
  sortRank (fun (k : Grid) => [k.arrival]) (s.grids.filter fun k => k.part == p && k.inPool)

/-- The logical identifier of the next token holder of a partition on a stack, all ones where there is no token (R327). -/
def State.holderWord (s : State) (p die : Nat) : Nat := ((s.token? die p).map (·.at_)).getD (2 ^ 32 - 1)

/-- Bytes stored by the dispatcher for no queue context, 64 at a time (R327, R349). -/
def State.storeLines (s : State) (die part va : Nat) (bs : List Byte) : Nat → State
  | 0 => s
  | fuel + 1 =>
    if bs.isEmpty then s
    else (s.dispatcherStore die part 0 noQueue va (bs.take 64)).2.storeLines die part (va + 64) (bs.drop 64) fuel

/-- The bytes that a migration writes: child packets, their depths, 64 semaphores, and the token positions (R327). -/
def State.migrationBytes (s : State) (p : Nat) : List Byte :=
  let ks := s.poolOf p
  ks.flatMap (fun k => (k.packet ++ List.replicate 64 0).take 64) ++ ks.flatMap (fun k => leBytes 4 k.depth) ++
  ((List.range 64).flatMap fun n => leBytes 4 (s.sem p n).toNat) ++ leBytes 4 (s.holderWord p 0) ++ leBytes 4 (s.holderWord p 1)

/-- The save pool of a partition: of its trap vector record, read now. -/
def State.savePool (s : State) (p : Part) : Nat × Nat :=
  match s.readVector p with
  | .ok v => (v.pool, v.poolSize)
  | _ => (0, 0)

/-- The pool records and the migration record of a partition are written to its save pool (R327). -/
def State.migrationSave (s : State) (p : Nat) : State :=
  match s.parts.find? fun x => x.num == p with
  | none => s
  | some x =>
    let bs := s.migrationBytes p
    let pool := s.savePool x
    match s.poolArea p pool.1 pool.2 (roundUp bs.length 64) with
    | none => s
    | some base =>
      let (id, s1) := s.takeFresh
      let s2 : State := { s1 with pool := s1.pool ++ [{ part := p, base := base, size := roundUp bs.length 64, block := id }] }
      (s2.storeLines x.die p base bs (bs.length / 64 + 1)).modPart p fun y => { y with moved := some (base, (s.poolOf p).length) }

/-- A pending record is read back: its nesting depth, and the grid of its packet where software has changed it (R327). -/
def State.readPending (s : State) (k : Grid) (bytes : List Byte) (depth : Nat) : Grid :=
  if bytes = (k.packet ++ List.replicate 64 0).take 64 then { k with depth := depth }
  else
    match s.checkDispatch { die := k.die, part := k.part, queue := k.queue } bytes with
    | .ok x =>
      { x with uid := k.uid, parent := k.parent, depth := depth, cls := k.cls, deadline := k.deadline, arrival := k.arrival
               next := k.next, retired := k.retired, inPool := k.inPool, wave := k.wave }
    | _ => { k with depth := depth }

/-- The pending records are read back, in pool order (R327). -/
def State.readPool (s : State) (x : Part) (base n : Nat) : State :=
  let ks := s.poolOf x.num
  ((List.range n).zip ks).foldl (fun t e =>
    match t.readBytes x.die x.num (base + 64 * e.1) 64, t.readBytes x.die x.num (base + 64 * n + 4 * e.1) 4 with
    | .ok bs, .ok d => t.modGrid e.2.uid fun k => t.readPending k bs (leNat d)
    | _, _ => t) s

/-- The session goes on on the other stack: its grids, its blocks and its commit tokens (R327). -/
def State.crossOver (s : State) (p : Nat) : State :=
  let mine := fun (uid : Nat) => s.grids.any fun k => k.uid == uid && k.part == p
  { s with
    grids := s.grids.map fun k => if k.part == p then { k with die := 1 - k.die } else k
    blocks := s.blocks.map fun b =>
      if mine b.grid then { b with die := 1 - b.die } else b
    tokens := s.tokens.map fun t => if t.part == p then { t with die := 1 - t.die } else t }

/-- No block of the partition is on cores, and every band that it handed over has been read or discarded (R327). -/
def State.vacated (s : State) (p : Nat) : Bool :=
  (s.bands.all fun b => b.part != p || b.data.isSome || b.dead) &&
  s.blocks.all fun b => ((s.grid? b.grid).getD {}).part != p || b.st == .saved || b.st == .aborted || b.st == .retired

/-- The pending records and the migration record are read back: child packets, depths, semaphores and token positions; then the
blocks may come back (R327). -/
def State.migrationRestore (s : State) (p : Nat) : State :=
  match s.parts.find? fun x => x.num == p with
  | none => s
  | some x =>
    let free := fun (t : State) => t.modPart p fun y => { y with migrating := false, moved := none }
    match x.moved with
    | none => free s
    | some (base, n) =>
      match s.readBytes x.die p (base + 68 * n) 264 with
      | .ok bs =>
        let w := fun i => leNat ((bs.drop (4 * i)).take 4)
        let s1 := (List.range 64).foldl (fun t i => t.setRegN 0 (pkSem p i) (w i)) (s.readPool x base n)
        let s2 : State := { s1 with
          tokens := s1.tokens.map fun t => if t.part == p then { t with at_ := w (64 + t.die) } else t
          pool := s1.pool.filter fun a => !(a.part == p && a.base == base) }
        free s2
      | _ => s

/-- The bands of a partition that have been handed over are read, as soon as their translations are there, or discarded where a store
keeps them from being read (R327). -/
def State.migrationBands (s : State) (p : Nat) : State :=
  (s.bands.filter fun b => b.part == p && b.data.isNone && !b.dead).foldl
    (fun t b => if t.bandHeld b then t.discard b else t.readBand b) s

/-- SESSION_MIGRATION: the steps of R327 that the hardware takes. The blocks are pre-empted with reason 1, each as soon as it can be,
and come back with the last step; meanwhile the partition places nothing. -/
def execSessionMigration (p : Nat) (m : MigrationStep) (s : State) : Host.Outcome State Fault Refusal :=
  match m with
  | .preempt =>
    let s1 := s.modPart p fun x => { x with migrating := true }
    .next ((s1.blocks.filter fun b => ((s1.grid? b.grid).getD {}).part == p).foldl (fun t b => t.wantPreempt b.uid 1 none) s1)
  | .save => .next (s.migrationSave p)
  | .bands => .next (s.migrationBands p)
  | .restore => .next (s.migrationRestore p)
  | .restoreOther => .next (if s.vacated p then (s.migrationRestore p).crossOver p else s)

end Sys2Proof.Machine
end

