-- ==== Sys2Proof/Machine/Remote.lean ====
section
/-! DEFINITION. Accesses of the other stack that get no answer (R85, R345, R408): when the time of VX_TIMEOUT begins, how an answer
is lost, and REMOTE_TIMEOUT; accesses that arrive at the cores of their stack, and what becomes of those that the mesh does not carry
(R49, R213, R410). -/
namespace Sys2Proof.Machine

/-- An access that has crossed to the other stack, or is about to, and has no answer. -/
def Acc.awaits (a : Acc) : Bool := a.peer && !a.held && (a.lost || !a.performed)

/-- An operation with accesses of its own waits for an answer of the other stack (R345). -/
def State.awaitsPeer (s : State) (g : Group) (o : Op) : Bool :=
  match o.work with
  | .mem k _ accs => g.inOrder o k && accs.any fun a => a.awaits && !g.blocked o a
  | .mtld _ _ a => s.tileTurn g o && !s.transferStuck g o && a.peer && a.fault.isNone && !a.locs.isEmpty
  | .mtst _ _ a => s.tileTurn g o && !s.transferStuck g o && a.peer && a.fault.isNone && !a.locs.isEmpty
  | _ => false

/-- The time of the accesses that wait for an answer begins. -/
def State.stampPeers (s : State) : State :=
  { s with groups := s.groups.map fun g =>
      if g.ops.any fun o => o.since.isNone && s.awaitsPeer g o then
        { g with ops := g.ops.map fun o =>
            if o.since.isNone && s.awaitsPeer g o then { o with since := some s.clk } else o }
      else g }

/-- The operations of a group whose answer has not come in time. -/
def State.latePeers (s : State) (g : Group) : List Op := g.ops.filter fun o => s.awaitsPeer g o && s.expired g.die o.since

/-- The answer to a memory operation is lost. A store or atomic may have been performed at its target all the same: `performed` says
whether it was (R345). -/
def State.loseMem (s : State) (g : Group) (o : Op) (k : MemKind) (accs : List Acc) (performed : Bool) : State :=
  let s1 := if performed && k.writes then (s.performSel g.uid o fun a => a.peer && !g.blocked o a).refusePeers g.uid o.id else s
  s1.modGroup g.uid fun x =>
    match (x.op? o.id).bind fun y => y.work.mem? with
    | some (k, d, new) =>
      x.setOp { o with
        since := some (o.since.getD s.clk)
        work := .mem k d ((accs.zip new).map fun p => if p.1.awaits && !g.blocked o p.1 then { p.2 with lost := true } else p.2) }
    | none => x

/-- The answer to an `mtst` is lost, which was performed or not. -/
def State.storeTransfer (s : State) (g : Group) (o : Op) (first n : Nat) (a : Acc) (performed : Bool) : State :=
  if !performed || a.lost then s
  else
    let r := s.performAt g .store { a with data := g.tileData o.level first n }
    match r.fault with
    | none => r.s
    | some c => r.s.peerRecord g o (1 - g.die) 0x25 c.num .store [a]

/-- The answer of the other stack to an operation is lost (R408). -/
def State.loseOp (s : State) (g : Group) (o : Op) (performed : Bool) : State :=
  let since := some (o.since.getD s.clk)
  match o.work with
  | .mem k _ accs => s.loseMem g o k accs performed
  | .mtld f n a => s.modGroup g.uid fun x => x.setOp { o with since := since, work := .mtld f n { a with lost := true } }
  | .mtst f n a =>
    (s.storeTransfer g o f n a performed).modGroup g.uid fun x =>
      x.setOp { o with since := since, work := .mtst f n { a with lost := true } }
  | _ => s

/-- The accesses of an operation that have no answer end with REMOTE_TIMEOUT; one that the other stack has refused before keeps its
fault. -/
def Group.timeOut (g : Group) (o : Op) : Group :=
  let late := fun (a : Acc) =>
    if a.awaits && !g.blocked o a then { a with performed := true, lost := false, fault := some .remoteTimeout, got := [] } else a
  match o.work with
  | .mem k d accs => g.setOp { o with since := none, work := .mem k d (accs.map late) }
  | .mtld f n a => g.setOp { o with since := none, work := .mtld f n { a with lost := false, fault := some .remoteTimeout } }
  | .mtst f n a => g.setOp { o with since := none, work := .mtst f n { a with lost := false, fault := some .remoteTimeout } }
  | _ => g

/-- The record of an operation without an answer (R341, R345). -/
def State.timeoutRecord (s : State) (g : Group) (o : Op) : State :=
  match o.work with
  | .mem k _ accs => s.peerRecord g o g.die 0x26 0 k (accs.filter (·.awaits))
  | .mtld _ _ a => s.peerRecord g o g.die 0x26 0 (.load 4 false) [a]
  | .mtst _ _ a => s.peerRecord g o g.die 0x26 0 .store [a]
  | _ => s

/-- No answer to an operation comes in time (R345). -/
def State.timeOutOp (s : State) (u op : Nat) : State :=
  match (s.group? u).bind fun g => (g.op? op).map fun o => (g, o) with
  | some (g, o) => (s.timeoutRecord g o).modGroup u fun x => x.timeOut o
  | none => s

/-- Engine commands that read memory: the answer that one waits for may be lost. -/
def Work.reads : Work → Bool
  | .vtrace .. => true
  | .vprobe .. => true
  | .vtex .. => true
  | .ddraw .. => true
  | .dpos .. => true
  | _ => false

/-- The number by which REMOTE_TIMEOUT_EXPIRY names a copy request of a group: above those of operations (log 108). -/
def copyOper (id : Nat) : Nat := 2 ^ 32 + id

/-- The next access of a copy request is one of the other stack's memory. -/
def State.copyAsksPeer (s : State) (c : Copy) : Bool :=
  c.moves &&
    (match (s.linksDown.copyRun c c.chunkEnd 1).2.2 with
     | some (.away _, _) => true
     | _ => false)

/-- The answer to the next access of a copy request is lost; the access may have been performed at its target (R345). -/
def State.loseCopy (s : State) (c : Copy) (performed : Bool) : State :=
  if !s.copyAsksPeer c || c.lost then s
  else
    let s1 := if performed then ({ s with die0 := { s.die0 with retrain := false }, die1 := { s.die1 with retrain := false } }
        : State).copyRun c c.chunkEnd 1 |>.1 else s
    ({ s1 with
       die0 := { s1.die0 with retrain := s.die0.retrain }, die1 := { s1.die1 with retrain := s.die1.retrain } } : State).modCopy c.id
      fun x => { x with lost := true, since := some (x.since.getD s.clk) }

/-- REMOTE_TIMEOUT_EXPIRY: no answer comes for an operation of a group, a `waitm` or a copy request (R345). Where its time is over it
ends with REMOTE_TIMEOUT; before that its answer is lost (R408), and the time runs on. `performed` says whether a store or atomic was
performed at its target all the same (log 108). -/
def execRemoteTimeoutExpiry (u op : Nat) (performed : Bool) (s : State) : Host.Outcome State Fault Refusal :=
  match s.group? u with
  | none =>
    match s.copies.find? fun c => c.owner == u && copyOper c.id == op with
    | some c => .next (s.loseCopy c performed)
    | none => .next s
  | some g =>
    match g.op? op with
    | some o =>
      if s.awaitsPeer g o then
        let s1 := s.loseOp g o performed
        .next (if s.expired g.die o.since then s1.timeOutOp u op else s1)
      else if o.work.reads then .next (s.setGroup (g.setOp { o with lost := true }))
      else .next s
    | none =>
      match s.copies.find? fun c => c.owner == u && copyOper c.id == op with
      | some c => .next (s.loseCopy c performed)
      | none => if op = g.nextOp && g.waitPeer.isSome then .next (s.setGroup { g with waitLost := true }) else .next s

/-! ### The mesh (R410) -/

/-- The number by which SLICE_ACCESS_ARRIVAL says that the mesh has failed to carry an operation (log 118). -/
def failedOper (op : Nat) : Nat := 2 ^ 32 + op

/-- The number by which it says so of a copy request of the group. -/
def failedCopy (id : Nat) : Nat := 2 ^ 33 + id

/-- The number by which it says so of the line of scalar or lane code that the group's core has asked for. -/
def failedFetch (lane : Bool) : Nat := 2 ^ 34 + lane.toNat

/-- A transfer is on its way over the mesh. -/
def State.transferSent (s : State) (g : Group) (o : Op) (a : Acc) : Bool :=
  s.tileTurn g o && !s.transferStuck g o && a.fault.isNone && a.onMesh

/-- The flits of an operation fail at a hop after their 4 retries: it ends as one whose data are uncorrectable, and performs nothing
more (R410, R411, log 118). -/
def State.meshFail (s : State) (g : Group) (o : Op) : State :=
  let ends := fun (b : Bool) => if b && o.wait.isNone then s.retireOp g.uid o (some (unitFault o .uncorrectable 0 o.mask 0)) else s
  match o.work with
  | .mem k _ accs => if g.inOrder o k && o.wait.isNone && accs.any (·.onMesh) then s.setGroup (g.setOp o.meshFails) else s
  | .mtld f n a =>
    if s.transferSent g o a then s.setGroup (g.setOp { o with work := .mtld f n { a with fault := some .uncorrectable } }) else s
  | .mtst f n a =>
    if s.transferSent g o a then s.setGroup (g.setOp { o with work := .mtst f n { a with fault := some .uncorrectable } }) else s
  | .vsamp _ _ held => ends (g.turnOf o && (!held || s.holdsToken g))
  | .vsgat .. => ends (g.turnOf o)
  | .vtrace .. => ends (g.turnOf o)
  | .vprobe .. => ends (g.turnOf o)
  | .vtex .. => ends (g.turnOf o)
  | .ddraw .. => ends true
  | .dpos .. => ends true
  | _ => s

/-- An address in the own-core window: its bytes do not cross the mesh. -/
def inOwnCore (va : Nat) : Bool := winBase + 0x4000000000 ≤ va && va < winBase + 0x4000000000 + 2 ^ 21

/-- The next bytes of a copy request cross the mesh. -/
def State.copyOnMesh (s : State) (c : Copy) : Bool :=
  c.moves &&
    (c.kind == 6 ||
      (match s.copyPlace c c.done with
       | .ok (src, dst, _) _ => src.any (!inOwnCore ·) || dst.any (!inOwnCore ·)
       | _ => false))

/-- The mesh fails to carry the next bytes of a copy request, which stops it as uncorrectable data do (R65, R411). -/
def State.meshFailCopy (s : State) (u id : Nat) : State :=
  match s.copies.find? fun c => c.owner == u && c.id == id with
  | some c => if s.copyOnMesh c then s.modCopy id fun x => { x with ending := some (Code.uncorrectable.num, true) } else s
  | none => s

/-- The mesh fails to carry a line of code to the core of a group: no byte of it can be read there (R138, R411). -/
def State.meshFailFetch (s : State) (g : Group) (lane : Bool) : State :=
  let d := s.die g.die
  match d.fills.find? fun f => f.lane == lane && f.part == s.partOf g && f.cores.contains g.core with
  | none => s
  | some f =>
    let n := (f.locs.map (·.2)).sum
    (s.setDie g.die { d with fills := d.fills.map fun x => if x == f then { f with cores := f.cores.erase g.core } else x }).cacheLine
      { die := g.die, core := g.core, lane := lane, part := f.part, va := f.va, bytes := List.replicate n 0, bad := List.range n }

/-- What a number of SLICE_ACCESS_ARRIVAL says that the mesh has failed to carry for a group, once it names no operation: an operation or
the `waitm` that waits, a copy request, a line of code (R410, log 118). -/
def State.meshFailed (s : State) (u n : Nat) : State :=
  match s.group? u with
  | none => if failedCopy 0 ≤ n then s.meshFailCopy u (n - failedCopy 0) else s
  | some g =>
    if failedFetch false ≤ n then s.meshFailFetch g (n != failedFetch false)
    else if failedCopy 0 ≤ n then s.meshFailCopy u (n - failedCopy 0)
    else if failedOper 0 ≤ n then
      match g.op? (n - failedOper 0) with
      | some o => s.meshFail g (s.releaseHeld g o)
      | none => if n = failedOper g.nextOp && g.whyS == some 6 then s.setGroup { g with waitMesh := true } else s
    else s

/-- SLICE_ACCESS_ARRIVAL: the slice and neighbourhood accesses of an operation arrive at their target cores, where check
and access are one action (R49, R50), and with them its other accesses on this stack are performed, in ascending lane order, whatever
the window through which each reaches its bytes (R213); or the mesh has failed to carry something for the group, which the number says
(R410, log 118). -/
def execSliceAccessArrival (u op : Nat) (s : State) : Host.Outcome State Fault Refusal :=
  match (s.group? u).bind fun g => (g.op? op).map fun o => (g, s.releaseHeld g o) with
  | some (g, o) =>
    match o.work.mem? with
    | some (k, _, accs) =>
      if g.inOrder o k && accs.any (fun a => a.slice && !a.performed && !a.held) then
        .next (s.performSel u o fun a => !a.peer && !g.blocked o a)
      else .next s
    | none => .next s
  | none => .next (s.meshFailed u op)

end Sys2Proof.Machine
end

