-- ==== Sys2Proof/Machine/Dispatch.lean ====
section
/-! DEFINITION. The meaning of every instruction and event, one arm each. -/
namespace Sys2Proof.Machine

def exec (i : Instr) (s : State) : Host.Outcome State Fault Refusal :=
  match i with
  | .add d a b p => Sys2Proof.Machine.execAdd d a b p s
  | .sub d a b p => Sys2Proof.Machine.execSub d a b p s
  | .mul d a b p => Sys2Proof.Machine.execMul d a b p s
  | .mulh d a b => Sys2Proof.Machine.execMulh d a b s
  | .mulhn d a b => Sys2Proof.Machine.execMulhn d a b s
  | .divi d a b => Sys2Proof.Machine.execDivi d a b s
  | .divn d a b => Sys2Proof.Machine.execDivn d a b s
  | .remi d a b => Sys2Proof.Machine.execRemi d a b s
  | .remn d a b => Sys2Proof.Machine.execRemn d a b s
  | .and d a b p => Sys2Proof.Machine.execAnd d a b p s
  | .or d a b p => Sys2Proof.Machine.execOr d a b p s
  | .xor d a b p => Sys2Proof.Machine.execXor d a b p s
  | .andn d a b p => Sys2Proof.Machine.execAndn d a b p s
  | .shl d a b p => Sys2Proof.Machine.execShl d a b p s
  | .shr d a b p => Sys2Proof.Machine.execShr d a b p s
  | .sar d a b p => Sys2Proof.Machine.execSar d a b p s
  | .rotl d a b p => Sys2Proof.Machine.execRotl d a b p s
  | .min d a b p => Sys2Proof.Machine.execMin d a b p s
  | .minn d a b p => Sys2Proof.Machine.execMinn d a b p s
  | .max d a b p => Sys2Proof.Machine.execMax d a b p s
  | .maxn d a b p => Sys2Proof.Machine.execMaxn d a b p s
  | .clz d a p => Sys2Proof.Machine.execClz d a p s
  | .ctz d a p => Sys2Proof.Machine.execCtz d a p s
  | .popc d a p => Sys2Proof.Machine.execPopc d a p s
  | .sext d a p n => Sys2Proof.Machine.execSext d a p n s
  | .zext d a p n => Sys2Proof.Machine.execZext d a p n s
  | .cmp q a b k => Sys2Proof.Machine.execCmp q a b k s
  | .qand d a b => Sys2Proof.Machine.execQand d a b s
  | .qor d a b => Sys2Proof.Machine.execQor d a b s
  | .qxor d a b => Sys2Proof.Machine.execQxor d a b s
  | .qandn d a b => Sys2Proof.Machine.execQandn d a b s
  | .qnot d a => Sys2Proof.Machine.execQnot d a s
  | .qget d => Sys2Proof.Machine.execQget d s
  | .qset a => Sys2Proof.Machine.execQset a s
  | .sel d a b p q => Sys2Proof.Machine.execSel d a b p q s
  | .mov d a p => Sys2Proof.Machine.execMov d a p s
  | .srd d n => Sys2Proof.Machine.execSrd d n s
  | .addi d a n => Sys2Proof.Machine.execAddi d a n s
  | .andi d a n => Sys2Proof.Machine.execAndi d a n s
  | .ori d a n => Sys2Proof.Machine.execOri d a n s
  | .xori d a n => Sys2Proof.Machine.execXori d a n s
  | .shli d a n => Sys2Proof.Machine.execShli d a n s
  | .shri d a n => Sys2Proof.Machine.execShri d a n s
  | .sari d a n => Sys2Proof.Machine.execSari d a n s
  | .cmpi k q a n => Sys2Proof.Machine.execCmpi k q a n s
  | .movi d n => Sys2Proof.Machine.execMovi d n s
  | .movhi d n => Sys2Proof.Machine.execMovhi d n s
  | .gmov d x => Sys2Proof.Machine.execGmov d x s
  | .ldB d a f o => Sys2Proof.Machine.execLdB d a f o s
  | .ldBn d a f o => Sys2Proof.Machine.execLdBn d a f o s
  | .ldH d a f o => Sys2Proof.Machine.execLdH d a f o s
  | .ldHn d a f o => Sys2Proof.Machine.execLdHn d a f o s
  | .ldW d a f o => Sys2Proof.Machine.execLdW d a f o s
  | .ldD d a f o => Sys2Proof.Machine.execLdD d a f o s
  | .stB d a f o => Sys2Proof.Machine.execStB d a f o s
  | .stH d a f o => Sys2Proof.Machine.execStH d a f o s
  | .stW d a f o => Sys2Proof.Machine.execStW d a f o s
  | .stD d a f o => Sys2Proof.Machine.execStD d a f o s
  | .atom d a f z o => Sys2Proof.Machine.execAtom d a f z o s
  | .jmp o => Sys2Proof.Machine.execJmp o s
  | .bq q n o => Sys2Proof.Machine.execBq q n o s
  | .call o => Sys2Proof.Machine.execCall o s
  | .jr a => Sys2Proof.Machine.execJr a s
  | .loop d n => Sys2Proof.Machine.execLoop d n s
  | .lrun n => Sys2Proof.Machine.execLrun n s
  | .lrunx a b => Sys2Proof.Machine.execLrunx a b s
  | .fwait m => Sys2Proof.Machine.execFwait m s
  | .waitp a p => Sys2Proof.Machine.execWaitp a p s
  | .waitz a => Sys2Proof.Machine.execWaitz a s
  | .bar d n => Sys2Proof.Machine.execBar d n s
  | .bara d n => Sys2Proof.Machine.execBara d n s
  | .barw n => Sys2Proof.Machine.execBarw n s
  | .swpt n => Sys2Proof.Machine.execSwpt n s
  | .ckick a b => Sys2Proof.Machine.execCkick a b s
  | .ccancel a => Sys2Proof.Machine.execCcancel a s
  | .launch a => Sys2Proof.Machine.execLaunch a s
  | .join a => Sys2Proof.Machine.execJoin a s
  | .xsig x => Sys2Proof.Machine.execXsig x s
  | .xwait x => Sys2Proof.Machine.execXwait x s
  | .mma x f g => Sys2Proof.Machine.execMma x f g s
  | .mqt a f => Sys2Proof.Machine.execMqt a f s
  | .mzero a f => Sys2Proof.Machine.execMzero a f s
  | .mtld a b f => Sys2Proof.Machine.execMtld a b f s
  | .mtst a b f => Sys2Proof.Machine.execMtst a b f s
  | .mfifoClaim a b x => Sys2Proof.Machine.execMfifoClaim a b x s
  | .mfifoRelease x => Sys2Proof.Machine.execMfifoRelease x s
  | .mfifoHead a x => Sys2Proof.Machine.execMfifoHead a x s
  | .mfifoSethead a x => Sys2Proof.Machine.execMfifoSethead a x s
  | .dkey a b => Sys2Proof.Machine.execDkey a b s
  | .ddraw a d n f => Sys2Proof.Machine.execDdraw a d n f s
  | .dpos a d f => Sys2Proof.Machine.execDpos a d f s
  | .xband a f => Sys2Proof.Machine.execXband a f s
  | .waitm a b => Sys2Proof.Machine.execWaitm a b s
  | .trap n => Sys2Proof.Machine.execTrap n s
  | .eretTerm a => Sys2Proof.Machine.execEretTerm a s
  | .prd d x k => Sys2Proof.Machine.execPrd d x k s
  | .pwr n v k => Sys2Proof.Machine.execPwr n v k s
  | .brk n => Sys2Proof.Machine.execBrk n s
  | .tlbinv a b => Sys2Proof.Machine.execTlbinv a b s
  | .clauseStart h => Sys2Proof.Machine.execClauseStart h s
  | .laneBlockStart g => Sys2Proof.Machine.execLaneBlockStart g s
  | .vadd l => Sys2Proof.Machine.execVadd l s
  | .vsub l => Sys2Proof.Machine.execVsub l s
  | .vmul l => Sys2Proof.Machine.execVmul l s
  | .vmulh l => Sys2Proof.Machine.execVmulh l s
  | .vmad l => Sys2Proof.Machine.execVmad l s
  | .vabs l => Sys2Proof.Machine.execVabs l s
  | .vneg l => Sys2Proof.Machine.execVneg l s
  | .vmin l => Sys2Proof.Machine.execVmin l s
  | .vmax l => Sys2Proof.Machine.execVmax l s
  | .vand l => Sys2Proof.Machine.execVand l s
  | .vor l => Sys2Proof.Machine.execVor l s
  | .vxor l => Sys2Proof.Machine.execVxor l s
  | .vnot l => Sys2Proof.Machine.execVnot l s
  | .vandn l => Sys2Proof.Machine.execVandn l s
  | .vshl l => Sys2Proof.Machine.execVshl l s
  | .vshr l => Sys2Proof.Machine.execVshr l s
  | .vsar l => Sys2Proof.Machine.execVsar l s
  | .vrotl l => Sys2Proof.Machine.execVrotl l s
  | .vclz l => Sys2Proof.Machine.execVclz l s
  | .vpopc l => Sys2Proof.Machine.execVpopc l s
  | .vbrev l => Sys2Proof.Machine.execVbrev l s
  | .vbfe l => Sys2Proof.Machine.execVbfe l s
  | .vbfi l => Sys2Proof.Machine.execVbfi l s
  | .vaddc l => Sys2Proof.Machine.execVaddc l s
  | .vsubb l => Sys2Proof.Machine.execVsubb l s
  | .vsad l => Sys2Proof.Machine.execVsad l s
  | .vdp4 l => Sys2Proof.Machine.execVdp4 l s
  | .vcmp l => Sys2Proof.Machine.execVcmp l s
  | .vpop l => Sys2Proof.Machine.execVpop l s
  | .vsel l => Sys2Proof.Machine.execVsel l s
  | .vfadd l => Sys2Proof.Machine.execVfadd l s
  | .vfsub l => Sys2Proof.Machine.execVfsub l s
  | .vfmul l => Sys2Proof.Machine.execVfmul l s
  | .vfma l => Sys2Proof.Machine.execVfma l s
  | .vfmin l => Sys2Proof.Machine.execVfmin l s
  | .vfmax l => Sys2Proof.Machine.execVfmax l s
  | .vfrnd l => Sys2Proof.Machine.execVfrnd l s
  | .vfrac l => Sys2Proof.Machine.execVfrac l s
  | .vdot2 l => Sys2Proof.Machine.execVdot2 l s
  | .vfscl l => Sys2Proof.Machine.execVfscl l s
  | .vfcmp l => Sys2Proof.Machine.execVfcmp l s
  | .vclass l => Sys2Proof.Machine.execVclass l s
  | .vrcp l => Sys2Proof.Machine.execVrcp l s
  | .vrsq l => Sys2Proof.Machine.execVrsq l s
  | .vsqrt l => Sys2Proof.Machine.execVsqrt l s
  | .vexp2 l => Sys2Proof.Machine.execVexp2 l s
  | .vlog2 l => Sys2Proof.Machine.execVlog2 l s
  | .vsin l => Sys2Proof.Machine.execVsin l s
  | .vcos l => Sys2Proof.Machine.execVcos l s
  | .vtanh l => Sys2Proof.Machine.execVtanh l s
  | .vcvt l => Sys2Proof.Machine.execVcvt l s
  | .vpack l => Sys2Proof.Machine.execVpack l s
  | .vunpk l => Sys2Proof.Machine.execVunpk l s
  | .vquant l => Sys2Proof.Machine.execVquant l s
  | .vquantScale l => Sys2Proof.Machine.execVquantScale l s
  | .vmov l => Sys2Proof.Machine.execVmov l s
  | .vmovi l => Sys2Proof.Machine.execVmovi l s
  | .vsrd l => Sys2Proof.Machine.execVsrd l s
  | .vshfl l => Sys2Proof.Machine.execVshfl l s
  | .vred l => Sys2Proof.Machine.execVred l s
  | .vscan l => Sys2Proof.Machine.execVscan l s
  | .vballot l => Sys2Proof.Machine.execVballot l s
  | .vfirst l => Sys2Proof.Machine.execVfirst l s
  | .collectiveWrite g op => Sys2Proof.Machine.execCollectiveWrite g op s
  | .vld l => Sys2Proof.Machine.execVld l s
  | .vst l => Sys2Proof.Machine.execVst l s
  | .vatom l => Sys2Proof.Machine.execVatom l s
  | .vmred l => Sys2Proof.Machine.execVmred l s
  | .vprf l => Sys2Proof.Machine.execVprf l s
  | .vbr l => Sys2Proof.Machine.execVbr l s
  | .vbrx l => Sys2Proof.Machine.execVbrx l s
  | .vend l => Sys2Proof.Machine.execVend l s
  | .vexit l => Sys2Proof.Machine.execVexit l s
  | .vnop l => Sys2Proof.Machine.execVnop l s
  | .vfeed l => Sys2Proof.Machine.execVfeed l s
  | .vaccr l => Sys2Proof.Machine.execVaccr l s
  | .vaccw l => Sys2Proof.Machine.execVaccw l s
  | .vsamp l => Sys2Proof.Machine.execVsamp l s
  | .vtrace l => Sys2Proof.Machine.execVtrace l s
  | .vprobe l => Sys2Proof.Machine.execVprobe l s
  | .vtex l => Sys2Proof.Machine.execVtex l s
  | .vsgat l => Sys2Proof.Machine.execVsgat l s
  | .vrowpk l => Sys2Proof.Machine.execVrowpk l s
  | .accessReturn g op => Sys2Proof.Machine.execAccessReturn g op s
  | .sliceAccessArrival g op => Sys2Proof.Machine.execSliceAccessArrival g op s
  | .peerAccessArrival g op => Sys2Proof.Machine.execPeerAccessArrival g op s
  | .pageWalk die => Sys2Proof.Machine.execPageWalk die s
  | .copyRequestStart die core => Sys2Proof.Machine.execCopyRequestStart die core s
  | .copyChunkLanding c => Sys2Proof.Machine.execCopyChunkLanding c s
  | .copyRequestEnd c => Sys2Proof.Machine.execCopyRequestEnd c s
  | .mmaComplete g op => Sys2Proof.Machine.execMmaComplete g op s
  | .matrixTransferComplete g op => Sys2Proof.Machine.execMatrixTransferComplete g op s
  | .vfeedComplete g op => Sys2Proof.Machine.execVfeedComplete g op s
  | .mqtComplete g op => Sys2Proof.Machine.execMqtComplete g op s
  | .engineCommandComplete g op => Sys2Proof.Machine.execEngineCommandComplete g op s
  | .vsgatDelivery g op => Sys2Proof.Machine.execVsgatDelivery g op s
  | .vsampForward die => Sys2Proof.Machine.execVsampForward die s
  | .ddrawComplete g op => Sys2Proof.Machine.execDdrawComplete g op s
  | .dposRoundComplete g op => Sys2Proof.Machine.execDposRoundComplete g op s
  | .codeFetchFill die => Sys2Proof.Machine.execCodeFetchFill die s
  | .trapEntry g => Sys2Proof.Machine.execTrapEntry g s
  | .breakpointMatch g slot => Sys2Proof.Machine.execBreakpointMatch g slot s
  | .saveTimeout b => Sys2Proof.Machine.execSaveTimeout b s
  | .restoreTimeout b => Sys2Proof.Machine.execRestoreTimeout b s
  | .unitPlacement die => Sys2Proof.Machine.execUnitPlacement die s
  | .switchRequestExpiry b => Sys2Proof.Machine.execSwitchRequestExpiry b s
  | .blockPark b => Sys2Proof.Machine.execBlockPark b s
  | .blockRetirement b => Sys2Proof.Machine.execBlockRetirement b s
  | .gridCompletion k => Sys2Proof.Machine.execGridCompletion k s
  | .coalesceTimerExpiry die q => Sys2Proof.Machine.execCoalesceTimerExpiry die q s
  | .packetCoreStep die => Sys2Proof.Machine.execPacketCoreStep die s
  | .dispatchPacket die q => Sys2Proof.Machine.execDispatchPacket die q s
  | .signalPacket die q => Sys2Proof.Machine.execSignalPacket die q s
  | .waitPacket die q => Sys2Proof.Machine.execWaitPacket die q s
  | .nopPacket die q => Sys2Proof.Machine.execNopPacket die q s
  | .profileSample die => Sys2Proof.Machine.execProfileSample die s
  | .barrierWatchdogExpiry b n => Sys2Proof.Machine.execBarrierWatchdogExpiry b n s
  | .egressBandRead k => Sys2Proof.Machine.execEgressBandRead k s
  | .sliceTransmit k => Sys2Proof.Machine.execSliceTransmit k s
  | .bandDeadlineExpiry k => Sys2Proof.Machine.execBandDeadlineExpiry k s
  | .powerStateEntry die => Sys2Proof.Machine.execPowerStateEntry die s
  | .unassignedOpcodeIssue lane w => Sys2Proof.Machine.execUnassignedOpcodeIssue lane w s
  | .slackBelowMargin die k => Sys2Proof.Machine.execSlackBelowMargin die k s
  | .stallCounterClk g => Sys2Proof.Machine.execStallCounterClk g s
  | .viaductRetrainEnd die => Sys2Proof.Machine.execViaductRetrainEnd die s
  | .stackReachesD0 die => Sys2Proof.Machine.execStackReachesD0 die s
  | .halt die => Sys2Proof.Machine.execHalt die s
  | .go die => Sys2Proof.Machine.execGo die s
  | .step die => Sys2Proof.Machine.execStep die s
  | .read die => Sys2Proof.Machine.execRead die s
  | .write die => Sys2Proof.Machine.execWrite die s
  | .pop die => Sys2Proof.Machine.execPop die s
  | .memrd die => Sys2Proof.Machine.execMemrd die s
  | .memwr die => Sys2Proof.Machine.execMemwr die s
  | .query die => Sys2Proof.Machine.execQuery die s
  | .rreg die => Sys2Proof.Machine.execRreg die s
  | .wreg die => Sys2Proof.Machine.execWreg die s
  | .find die => Sys2Proof.Machine.execFind die s
  | .thermalBlockMove b core => Sys2Proof.Machine.execThermalBlockMove b core s
  | .ret => Sys2Proof.Machine.execRet s
  | .exit => Sys2Proof.Machine.execExit s
  | .yield => Sys2Proof.Machine.execYield s
  | .nop => Sys2Proof.Machine.execNop s
  | .lsync => Sys2Proof.Machine.execLsync s
  | .fenceAcq => Sys2Proof.Machine.execFenceAcq s
  | .fenceRel => Sys2Proof.Machine.execFenceRel s
  | .fenceAr => Sys2Proof.Machine.execFenceAr s
  | .opfence => Sys2Proof.Machine.execOpfence s
  | .cpass => Sys2Proof.Machine.execCpass s
  | .mwait => Sys2Proof.Machine.execMwait s
  | .eret => Sys2Proof.Machine.execEret s
  | .eretSave => Sys2Proof.Machine.execEretSave s
  | .tlbsync => Sys2Proof.Machine.execTlbsync s
  | .attestationReport => Sys2Proof.Machine.execAttestationReport s
  | .debugAuthorisation => Sys2Proof.Machine.execDebugAuthorisation s
  | .governorCheck => Sys2Proof.Machine.execGovernorCheck s
  | .remoteTimeoutExpiry g op performed => Sys2Proof.Machine.execRemoteTimeoutExpiry g op performed s
  | .preemption b reason => Sys2Proof.Machine.execPreemption b reason s
  | .powerWake die => Sys2Proof.Machine.execPowerWake die s
  | .pkQwidxWrite die q w => Sys2Proof.Machine.execPkQwidxWrite die q w s
  | .pkQcfgWrite die q w => Sys2Proof.Machine.execPkQcfgWrite die q w s
  | .pkQctlStop die q => Sys2Proof.Machine.execPkQctlStop die q s
  | .pkQctlTerminate die q => Sys2Proof.Machine.execPkQctlTerminate die q s
  | .pkQctlResume die q => Sys2Proof.Machine.execPkQctlResume die q s
  | .pkQctlReset die q => Sys2Proof.Machine.execPkQctlReset die q s
  | .pkSemWrite p x w => Sys2Proof.Machine.execPkSemWrite p x w s
  | .icCtlWrite die q w => Sys2Proof.Machine.execIcCtlWrite die q w s
  | .twResolveRetry die p seq => Sys2Proof.Machine.execTwResolveRetry die p seq s
  | .twResolveTerminate die p seq => Sys2Proof.Machine.execTwResolveTerminate die p seq s
  | .twPdaddrWrite die p w => Sys2Proof.Machine.execTwPdaddrWrite die p w s
  | .twFrtailWrite p w => Sys2Proof.Machine.execTwFrtailWrite p w s
  | .egLockWrite w => Sys2Proof.Machine.execEgLockWrite w s
  | .seAttreqWrite w => Sys2Proof.Machine.execSeAttreqWrite w s
  | .registerWrite die off size v src => Sys2Proof.Machine.execRegisterWrite die off size v src s
  | .mboxaccUpdate data => Sys2Proof.Machine.execMboxaccUpdate data s
  | .sessionMigration p m => Sys2Proof.Machine.execSessionMigration p m s
  | .upwardSwitchRequest b => Sys2Proof.Machine.execUpwardSwitchRequest b s
  | .ptpCorrection port delta => Sys2Proof.Machine.execPtpCorrection port delta s
  | .pcieDownstreamRequest a => Sys2Proof.Machine.execPcieDownstreamRequest a s
  | .viaductRetrain die => Sys2Proof.Machine.execViaductRetrain die s
  | .sramScrub m addr f => Sys2Proof.Machine.execSramScrub m addr f s
  | .lpddrScrub addr f => Sys2Proof.Machine.execLpddrScrub addr f s
  | .moduleReset verified => Sys2Proof.Machine.execModuleReset verified s
  | .applicationCoreAccess a => Sys2Proof.Machine.execApplicationCoreAccess a s
  | .viaductFlitReplay die => Sys2Proof.Machine.execViaductFlitReplay die s
  | .ethernetFrameReceived port good => Sys2Proof.Machine.execEthernetFrameReceived port good s

end Sys2Proof.Machine
end

