-- ==== Sys2Proof/Machine/Placed.lean ====
section
/-! DEFINITION. A group placed with one instruction at the start of its code: how a program comes to run without the
queues of R351 (log 11). -/
namespace Sys2Proof.Machine

/-- The partition of the placed group: both rectangles whole, no quota. -/
def placedPart : Part := { a := { enable := true, rows := 8, cols := 16 }, b := { enable := true, rows := 8, cols := 16 } }

/-- The variant of the placed group. -/
def placedVariant : Variant := { vregs := 256, uregs := 512, acc := 64, scalarSize := 64, laneSize := 192 }

/-- The grid of the placed group: one block of one group. -/
def placedGrid : Grid := { threads := 32, barriers := 15, variants := [placedVariant], next := 1 }

/-- Its block. -/
def placedBlock : Block := { nBar := 16, barSlots := 16, shares := [(0, 1024)] }

/-- The group: a scalar stream at offset 0, or one lane path inside a clause of one instruction. -/
def placedGroup (lane : Bool) (header : Bool) : Group :=
  let p : Path :=
    if lane then { st := .running, mask := BitVec.allOnes 32, left := if header then 0 else 1, setA := some 0, setB := some 1 }
    else {}
  { vwin := 256, uwin := 512, awin := 64, k := { busy := lane, start := if lane then BitVec.allOnes 32 else 0, p0 := p } }

/-- The state with the group placed and its code line holding the word. -/
def State.placeWord (s : State) (nbits w : Nat) : State :=
  let lane := decide (32 < nbits)
  { s with
    parts := [placedPart], grids := [placedGrid], blocks := [placedBlock]
    groups := [placedGroup lane (laneOpcode w == 255)], usedS := [], usedL := []
    lines := [{ lane := lane, bytes := leBytes 12 w ++ List.replicate (lineBytes lane - 12) 0 }]
    agenda := [if lane then .lane 0 false else .scalar 0] }

end Sys2Proof.Machine
end

