-- ==== Sys2Proof/Machine/Schedule.lean ====
section
/-! DEFINITION. The clk boundary: time (R41, R403), the ends of pins (R335), answers that are late (R345), and the turns of the next
clk, in the order the model takes them (R19, log 3). -/
namespace Sys2Proof.Machine

/-! ### Rank -/

/-- The group is about to take a clause header with the yield hint (R19). -/
def State.yieldHint (s : State) (g : Group) : Bool :=
  let sec := s.sections g
  g.ctx.busy && [g.ctx.p0, g.ctx.p1].any fun p =>
    p.st == .running && p.left == 0 &&
    (match s.fetch g true sec.2.2.1 sec.2.2.2 (12 * p.pc) 12 with
     | .word w => laneOpcode w == 255 && (headerFields w).yield
     | _ => false)

/-- What ranks a group: class, age of its block, yield, index (R19). -/
def State.rank (s : State) (g : Group) : List Nat :=
  [(s.gridOf g).cls, g.block, (g.yielded || s.yieldHint g).toNat, g.index]

/-- The streams of a group: the scalar stream, and the slots, that which did not issue last first (R19). -/
def Group.turns (g : Group) : List Turn := [.scalar g.uid, .lane g.uid (!g.lastSlot), .lane g.uid g.lastSlot]

/-! ### Events of groups -/

/-- The event by which an operation completes, or arrives. -/
def opEvents (g : Group) (o : Op) : List Instr :=
  match o.work with
  | .mem _ _ accs =>
    (if accs.any fun a => a.slice && !a.performed then [.sliceAccessArrival g.uid o.id] else []) ++
    (if accs.any fun a => a.peer && !a.performed then [.peerAccessArrival g.uid o.id] else []) ++
    [.accessReturn g.uid o.id]
  | .collective _ _ => [.collectiveWrite g.uid o.id]
  | .mma _ => [.mmaComplete g.uid o.id]
  | .mzero _ _ => [.matrixTransferComplete g.uid o.id]
  | .mtld _ _ _ => [.matrixTransferComplete g.uid o.id]
  | .mtst _ _ _ => [.matrixTransferComplete g.uid o.id]
  | .mqt _ _ _ _ => [.mqtComplete g.uid o.id]
  | .vfeed _ _ _ _ _ _ => [.vfeedComplete g.uid o.id]
  | .vaccr _ _ _ => [.matrixTransferComplete g.uid o.id]
  | .vaccw _ _ _ => [.matrixTransferComplete g.uid o.id]
  | .vsgat _ _ _ _ _ _ => [.vsgatDelivery g.uid o.id]
  | .vsamp _ _ _ => [.engineCommandComplete g.uid o.id]
  | .vtrace _ _ _ => [.engineCommandComplete g.uid o.id]
  | .vprobe _ _ _ _ => [.engineCommandComplete g.uid o.id]
  | .vtex _ _ _ => [.engineCommandComplete g.uid o.id]
  | .vrowpk _ => [.engineCommandComplete g.uid o.id]
  | .ddraw _ _ _ _ => [.ddrawComplete g.uid o.id]
  | .dpos _ _ _ => [.dposRoundComplete g.uid o.id]
  | .xband _ => []

/-- The events of a group in a clk. -/
def Group.events (g : Group) : List Instr :=
  g.ops.flatMap (opEvents g) ++
  (if !g.ctx.queue.isEmpty && !g.ctx.busy then [.laneBlockStart g.uid] else []) ++
  (if g.mode == .kernel && g.trapWaits then [.trapEntry g.uid] else [])

/-! ### Events of a stack and of the module -/

/-- Timers and units of a stack in a clk. -/
def State.dieEvents (s : State) (n : Nat) : List Instr :=
  let d := s.die n
  (if d.walks.isEmpty then [] else [.pageWalk n]) ++ (if d.fills.isEmpty then [] else [.codeFetchFill n]) ++
  (if d.retrain then [.viaductRetrainEnd n] else []) ++
  ((d.coalesce.filter fun c => c.2.timer.any (· ≤ s.clk)).map fun c => .coalesceTimerExpiry n c.1) ++
  (if d.power.wake.any (· ≤ s.clk) then [.stackReachesD0 n] else []) ++
  [.packetCoreStep n, .unitPlacement n, .powerStateEntry n] ++
  ((s.grids.filter fun k => k.die == n && k.cls == 0 && k.st == .active).map fun k => .slackBelowMargin n k.uid) ++
  (if s.forwards.any fun f => f.die == n then [.vsampForward n] else [])

/-- Events of a block in a clk. -/
def State.blockEvents (s : State) (b : Block) : List Instr :=
  (if b.st == .finished then [.blockRetirement b.uid] else []) ++
  (if b.st == .stopping || b.st == .saving then [.saveTimeout b.uid] else []) ++
  (if b.st == .restoring then [.restoreTimeout b.uid] else []) ++
  (if b.req.isSome then [.switchRequestExpiry b.uid] else []) ++
  (match b.wanted with
   | some w => if b.st == .resident then [.preemption b.uid w.1] else []
   | none => []) ++
  (if b.st == .resident then [.blockPark b.uid] else []) ++
  ((List.range 16).filter fun n => ((b.bars.getD n {}).first).isSome).map fun n => .barrierWatchdogExpiry b.uid n

/-- Events of copies in a clk: the first queued of each core may start, started ones move on. -/
def copyEvents (c : Copy) : List Instr :=
  match c.st with
  | .queued => [.copyRequestStart c.die c.core]
  | .started => [.copyChunkLanding c.id, .copyRequestEnd c.id]

/-- Events of a band in a clk. -/
def bandEvents (b : Band) : List Instr :=
  if b.data.isNone && !b.dead then [.egressBandRead b.id, .bandDeadlineExpiry b.id]
  else [.bandDeadlineExpiry b.id, .sliceTransmit b.id]

/-- A step that a module in recovery takes: a module reset (R414). -/
def isReset : Instr → Bool
  | .moduleReset _ => true
  | _ => false

/-- The inputs that are due. -/
def State.due (s : State) : List Instr := (s.inputs.filter fun x => x.1 ≤ s.clk).map (·.2)

/-- A mailbox command that runs (R381, R382), by its opcode. -/
def commandEvent (die n : Nat) : List Instr :=
  match n with
  | 1 => [.halt die]
  | 2 => [.go die]
  | 3 => [.step die]
  | 4 => [.read die]
  | 5 => [.write die]
  | 6 => [.pop die]
  | 7 => [.memrd die]
  | 8 => [.memwr die]
  | 9 => [.query die]
  | 10 => [.rreg die]
  | 11 => [.wreg die]
  | 12 => [.find die]
  | _ => []

/-- Events of the hub and of the mailboxes in a clk. -/
def State.hubEvents (s : State) : List Instr :=
  (if s.attest.isSome then [.attestationReport] else []) ++ (if s.clk % 1600000 = 0 then [.governorCheck] else []) ++
  [0, 1].flatMap fun n => if (s.die n).mboxBusy then commandEvent n (s.regN n (mbox 0) % 256) else []

/-- What looks at a clk when it is over: the sampler of each stack, and the stall counters. -/
def State.lateEvents (s : State) : List Instr :=
  ([0, 1].filter fun n => (s.die n).sampler.next.any (· ≤ s.clk)).map Instr.profileSample ++
  s.groups.map fun g => .stallCounterClk g.uid

/-- The turns of a clk: inputs, what is in flight, the units, the streams by rank, then what looks at them. -/
def State.turns (s : State) : List Turn :=
  let gs := sortRank s.rank (s.groups.filter fun g => !g.exited || !g.ops.isEmpty)
  if s.recovery then (s.due.filter isReset).map Turn.event
  else
  let late := s.groups.flatMap fun g => (s.latePeers g).map fun o => Instr.remoteTimeoutExpiry g.uid o.id false
  let ev := s.due ++ s.hubEvents ++ s.groups.flatMap Group.events ++ late ++ s.copies.flatMap copyEvents ++ s.bands.flatMap bandEvents ++
    s.dieEvents 0 ++ s.dieEvents 1 ++ s.blocks.flatMap s.blockEvents ++
    ((s.grids.filter fun k => k.st != .complete).map fun k => .gridCompletion k.uid)
  ev.map Turn.event ++ gs.flatMap Group.turns ++ s.lateEvents.map Turn.event

/-! ### Time -/

/-- The PTP clocks and session time at the next clk, of 5/8 ns: session time is what the clocks ask for, and while a backward
correction is absorbed one unit passes for every two of PTP time (R403). -/
def State.tick (s : State) : State :=
  let n := 5 * (s.clk + 1) / 8 - 5 * s.clk / 8
  let s1 : State := { s with
    clk := s.clk + 1, port0 := { s.port0 with ptp := s.port0.ptp + n }, port1 := { s.port1 with ptp := s.port1.ptp + n } }
  let want := s1.wantedTime
  if s1.stime ≤ want then { s1 with stime := want, slew := false }
  else if s.wantedTime < want then
    (if s1.slew then { s1 with stime := s1.stime + 1, slew := false } else { s1 with slew := true })
  else s1

/-- A pin ends when no resident block of a class 0 or 1 grid of its partition remains on its column (R335). -/
def State.unpinned (s : State) : State :=
  let keeps := fun (t : Tlb) => s.blocks.any fun b =>
    b.die == t.die && !(s.groupsOf b.uid).isEmpty &&
    (((s.grid? b.grid).map fun k => k.part == t.part && decide (k.cls < 2)).getD false) &&
    (List.range b.span).any fun i => coreCol (b.core + i) == t.unit
  if s.tlbs.any fun t => t.pinned && !keeps t then
    { s with tlbs := s.tlbs.map fun t => if t.pinned && !keeps t then { t with pinned := false } else t }
  else s

/-- The next clk begins. -/
def State.boundary (s : State) : State :=
  let s1 := s.tick.stampPeers.unpinned
  let s2 : State := { s1 with
    usedS := [], usedL := [], cur := none, agenda := s1.turns
    inputs := s1.inputs.filter fun x => s1.clk < x.1 }
  { s2 with groups := s2.groups.map fun g => { g with issued := false, yielded := false, whyL := none } }

end Sys2Proof.Machine
end

