-- ==== Sys2Proof/Machine/Step.lean ====
section
/-! DEFINITION. One step of the machine, and the state in which the next step runs a given instruction. -/
namespace Sys2Proof.Machine

/-- The instruction that a turn runs. -/
def runTurned : Turned → Host.Outcome State Fault Refusal
  | .run i s => exec i s
  | .idle s => .next s
  | .held u lane i s s' =>
    .next (s'.notChosen u lane (match exec i s with
      | .next t => some t
      | _ => none))

/-- One step: the head of the agenda, or, where it is empty, the boundary at which the next clk begins. -/
def step (s : State) : Host.Outcome State Fault Refusal :=
  match s.agenda with
  | [] => .next s.boundary
  | .event i :: rest => exec i { s with agenda := rest, cur := none }
  | .scalar u :: rest => runTurned (({ s with agenda := rest } : State).scalarTurn u)
  | .lane u slot :: rest => runTurned (({ s with agenda := rest } : State).laneTurn u slot)

/-- The state in which an instruction stands where the next step fetches it (log 11): a resident group at the start of
its code, its line cached, and its turn next. -/
def State.withFetchWord (s : State) (nbits w : Nat) : State := s.placeWord nbits w

end Sys2Proof.Machine
end

