-- ==== Sys2Proof/Certificates/Slice0/Obligations.lean ====
section
/-! DEFINITION. The statements for the provers, each a proposition, and the words in which they are said: how a scalar
or lane instruction ends, which runs of bytes a store covers, what a turn finds. -/

namespace Sys2Proof.Claims
open Sys2Proof.Machine

/-! ### Words of the scalar stream -/

/-- The scalar stream of group `g` issues: the registers that the instruction names lie in its window (R120, R305), and those
that it reads do not read as uncorrectable (R311). -/
structure Scalar (s : State) (c : Cur) (g : Group) (regs : List Nat) (reads : List Nat := regs) : Prop where
  cur : s.cur = some c
  group : s.group? c.group = some g
  window : ∀ r ∈ regs, r < g.ulimit
  clean : s.badUni g reads = false

/-- The instruction issues with the group `g'`, and the stream goes on with the next word. -/
def goesOn (s : State) (g g' : Group) : State :=
  s.issued (g'.setCtx { g'.ctx with pc := g'.ctx.pc + 4 }) 3 g.ctx.pc.toNat

/-- The same after an instruction that writes a pair whole: the word of the pair has valid checks again (log 6). -/
def pairDone (s : State) (g : Group) (d : Reg) (g' : Group) : State := goesOn (s.healPair g d.toNat) g g'

/-- The instruction issues with the group `g'`, and the stream goes on at an offset. -/
def jumps (s : State) (g g' : Group) (pc : Word) : State :=
  s.issued (g'.setCtx { g'.ctx with pc := pc }) 3 g.ctx.pc.toNat

/-- The instruction does not issue yet, for a reason of R389. -/
def waits (s : State) (g : Group) (why : Reason) : State := s.setGroup { g with whyS := some why }

/-- The instruction takes a precise trap at its own PC (R310). -/
def traps (s : State) (c : Cur) (g : Group) (code : Code) (info : Word) (addr : Nat) : State :=
  s.raise g 3 { code := code, pc := g.ctx.pc, info := info, address := addr, word := word c.word
                resume := if code = .software then g.ctx.pc + 4 else g.ctx.pc }

/-- The turn of the scalar stream of group `u` is next, nothing holds it back, its code gives the word `w`, and no breakpoint stands
there (R19, R137); `t` is the state in which the word is issued. -/
structure ScalarReady (s : State) (u : Nat) (rest : List Turn) (g : Group) (w : Nat) (t : State) : Prop where
  turn  : s.agenda = .scalar u :: rest
  group : s.group? u = some g
  idle  : g.scalarIdle = none
  going : s.frozen g = false
  halt  : g.mode = .kernel → g.stopS.halt = false
  slot  : s.usedS.contains g.quarterKey = false
  code  : ({ s with agenda := rest } : State).fetch g false (s.sections g).1 (s.sections g).2.1 g.ctx.pc.toNat 4 = .word w
  state : t = { s with agenda := rest, cur := some { group := g.uid, word := w } }
  free  : (t.breakpoint? g 3).isSome = false

/-- The same of a lane path (R129). -/
structure LaneReady (s : State) (u : Nat) (slot : Bool) (rest : List Turn) (g : Group) (w : Nat) (t : State) : Prop where
  turn  : s.agenda = .lane u slot :: rest
  group : s.group? u = some g
  idle  : g.laneIdleWhy slot = none
  going : s.frozen g = false
  halt  : g.mode = .kernel → (g.stop slot.toNat).halt = false
  used  : s.usedL.contains g.quarterKey = false
  code  : ({ s with agenda := rest } : State).fetch g true (s.sections g).2.2.1 (s.sections g).2.2.2 (12 * (g.ctx.path slot).pc) 12 =
    .word w
  state : t = { s with agenda := rest, cur := some { group := g.uid, lane := true, slot := slot, word := w } }
  free  : (t.breakpoint? g slot.toNat).isSome = false

/-- A lane word stands where it may: a header at a clause boundary, a control instruction in the last position (R128, R129). -/
def InPlace (p : Path) (w : Nat) : Prop :=
  (p.left = 0 ↔ laneOpcode w = 0xFF) ∧ (laneControlOp (laneOpcode w) = true → p.left = 1)

/-- No debug stop of the scalar stream waits, and it is not stepped (R386, R388). -/
def Calm (g : Group) : Prop := g.stopS.halt = false ∧ g.stopS.step = false

/-- Every byte of every memory reads as before. -/
def SameMemory (s t : State) : Prop := ∀ sp a, Mem.byte (t.mem sp) a = Mem.byte (s.mem sp) a

/-- Every register of the windows of R402 holds what it held. -/
def SameWindow (s t : State) : Prop := t.mmio = s.mmio

/-- Every group but one is as before. -/
def OthersSame (u : Nat) (s t : State) : Prop := ∀ v, v ≠ u → t.group? v = s.group? v

/-! ### Tables of the scalar instructions -/

/-- A three-register instruction with a pair form, and its result in `w` bits. -/
abbrev PairRow := (Reg → Reg → Reg → Bool → Instr) × ((w : Nat) → BitVec w → BitVec w → BitVec w)

/-- The rows of R149 with a pair form, but the shifts. -/
def pairRows : List PairRow :=
  [(.add, fun _ x y => x + y), (.sub, fun _ x y => x - y), (.mul, fun _ x y => x * y), (.and, fun _ x y => x &&& y),
   (.or, fun _ x y => x ||| y), (.xor, fun _ x y => x ^^^ y), (.andn, fun _ x y => x &&& ~~~y),
   (.min, fun _ x y => if y.toInt < x.toInt then y else x), (.minn, fun _ x y => if y.toNat < x.toNat then y else x),
   (.max, fun _ x y => if x.toInt < y.toInt then y else x), (.maxn, fun _ x y => if x.toNat < y.toNat then y else x)]

/-- The rows of R149 without a pair form (R150). -/
def wordRows : List ((Reg → Reg → Reg → Instr) × (Word → Word → Word)) :=
  [(.mulh, fun x y => ((x.signExtend 64 * y.signExtend 64) >>> 32).setWidth 32),
   (.mulhn, fun x y => ((x.setWidth 64 * y.setWidth 64) >>> 32).setWidth 32),
   (.divi, fun x y => if y = 0 then 0xFFFFFFFF else BitVec.ofInt 32 (x.toInt.tdiv y.toInt)),
   (.divn, fun x y => if y = 0 then 0xFFFFFFFF else BitVec.ofNat 32 (x.toNat / y.toNat)),
   (.remi, fun x y => if y = 0 then x else BitVec.ofInt 32 (x.toInt - y.toInt * x.toInt.tdiv y.toInt)),
   (.remn, fun x y => if y = 0 then x else BitVec.ofNat 32 (x.toNat - y.toNat * (x.toNat / y.toNat)))]

/-- The shifts of R149, and their result in `w` bits for an amount below `w`. -/
def shiftRows : List ((Reg → Reg → Reg → Bool → Instr) × ((w : Nat) → BitVec w → Nat → BitVec w)) :=
  [(.shl, fun w x n => BitVec.ofNat w (x.toNat * 2 ^ n)), (.shr, fun w x n => BitVec.ofNat w (x.toNat / 2 ^ n)),
   (.sar, fun w x n => BitVec.ofInt w (x.toInt.fdiv (2 ^ n : Nat))),
   (.rotl, fun w x n => BitVec.ofNat w (x.toNat * 2 ^ n + x.toNat / 2 ^ (w - n)))]

/-- The counts of R149, and when a number is the count of a value of `w` bits. -/
def countRows : List ((Reg → Reg → Bool → Instr) × ((w : Nat) → BitVec w → Nat → Prop)) :=
  [(.clz, fun w x r => r ≤ w ∧ (∀ i, i < r → x.getMsbD i = false) ∧ (r < w → x.getMsbD r = true)),
   (.ctz, fun w x r => r ≤ w ∧ (∀ i, i < r → x.getLsbD i = false) ∧ (r < w → x.getLsbD r = true)),
   (.popc, fun w x r => r = ((List.range w).filter x.getLsbD).length)]

/-- The conditions of R151. -/
def conditions : List (BitVec 4 × (Word → Word → Bool)) :=
  [(0, fun a b => decide (a = b)), (1, fun a b => decide (a ≠ b)), (2, fun a b => decide (a.toInt < b.toInt)),
   (3, fun a b => decide (a.toInt ≤ b.toInt)), (4, fun a b => decide (b.toInt < a.toInt)),
   (5, fun a b => decide (b.toInt ≤ a.toInt)), (6, fun a b => decide (a.toNat < b.toNat)),
   (7, fun a b => decide (a.toNat ≤ b.toNat)), (8, fun a b => decide (b.toNat < a.toNat)),
   (9, fun a b => decide (b.toNat ≤ a.toNat))]

/-- The immediate forms of R154 on one register. -/
def immRows : List ((Reg → Reg → BitVec 11 → Instr) × (Word → BitVec 11 → Word)) :=
  [(.addi, fun x i => x + i.signExtend 32), (.andi, fun x i => x &&& i.setWidth 32), (.ori, fun x i => x ||| i.setWidth 32),
   (.xori, fun x i => x ^^^ i.setWidth 32)]

/-- The immediate shifts of R154. -/
def immShiftRows : List ((Reg → Reg → BitVec 5 → Instr) × (Word → Nat → Word)) :=
  [(.shli, fun x n => BitVec.ofNat 32 (x.toNat * 2 ^ n)), (.shri, fun x n => BitVec.ofNat 32 (x.toNat / 2 ^ n)),
   (.sari, fun x n => BitVec.ofInt 32 (x.toInt.fdiv (2 ^ n : Nat)))]

/-- The loads of R155: bytes, and whether the value is sign-extended. -/
def loadRows : List ((Reg → Reg → FlagField → BitVec 7 → Instr) × Nat × Bool) :=
  [(.ldB, 1, true), (.ldBn, 1, false), (.ldH, 2, true), (.ldHn, 2, false), (.ldW, 4, false), (.ldD, 8, false)]

/-- The stores of R155, with their bytes. -/
def storeRows : List ((Reg → Reg → FlagField → BitVec 7 → Instr) × Nat) := [(.stB, 1), (.stH, 2), (.stW, 4), (.stD, 8)]

/-! ### The two streams -/

/-- The instructions of the scalar stream, the rows of R122. -/
def scalarStream : Instr → Bool
  | .add _ _ _ _ | .sub _ _ _ _ | .mul _ _ _ _ | .mulh _ _ _ | .mulhn _ _ _ | .divi _ _ _ | .divn _ _ _ | .remi _ _ _
  | .remn _ _ _ | .and _ _ _ _ | .or _ _ _ _ | .xor _ _ _ _ | .andn _ _ _ _ | .shl _ _ _ _ | .shr _ _ _ _ | .sar _ _ _ _
  | .rotl _ _ _ _ | .min _ _ _ _ | .minn _ _ _ _ | .max _ _ _ _ | .maxn _ _ _ _ | .clz _ _ _ | .ctz _ _ _ | .popc _ _ _
  | .sext _ _ _ _ | .zext _ _ _ _ | .cmp _ _ _ _ | .qand _ _ _ | .qor _ _ _ | .qxor _ _ _ | .qandn _ _ _ | .qnot _ _
  | .qget _ | .qset _ | .sel _ _ _ _ _ | .mov _ _ _ | .srd _ _ | .addi _ _ _ | .andi _ _ _ | .ori _ _ _ | .xori _ _ _
  | .shli _ _ _ | .shri _ _ _ | .sari _ _ _ | .cmpi _ _ _ _ | .movi _ _ | .movhi _ _ | .gmov _ _ | .ldB _ _ _ _
  | .ldBn _ _ _ _ | .ldH _ _ _ _ | .ldHn _ _ _ _ | .ldW _ _ _ _ | .ldD _ _ _ _ | .stB _ _ _ _ | .stH _ _ _ _ | .stW _ _ _ _
  | .stD _ _ _ _ | .atom _ _ _ _ _ | .jmp _ | .bq _ _ _ | .call _ | .ret | .jr _ | .loop _ _ | .exit | .yield | .nop
  | .lrun _ | .lrunx _ _ | .lsync | .fwait _ | .waitp _ _ | .waitz _ | .bar _ _ | .bara _ _ | .barw _ | .fenceAcq
  | .fenceRel | .fenceAr | .opfence | .cpass | .swpt _ | .ckick _ _ | .ccancel _ | .launch _ | .join _ | .xsig _ | .xwait _
  | .mma _ _ _ | .mqt _ _ | .mzero _ _ | .mtld _ _ _ | .mtst _ _ _ | .mwait | .mfifoClaim _ _ _ | .mfifoRelease _
  | .mfifoHead _ _ | .mfifoSethead _ _ | .dkey _ _ | .ddraw _ _ _ _ | .dpos _ _ _ | .xband _ _ | .waitm _ _ | .trap _
  | .eret | .eretSave | .eretTerm _ | .prd _ _ _ | .pwr _ _ _ | .brk _ | .tlbinv _ _ | .tlbsync => true
  | _ => false

/-- The instructions of the lane stream: the rows of R126, and the clause header (R128). -/
def laneStream (i : Instr) : Prop := i.laneRule.isSome = true ∨ ∃ h, i = .clauseStart h

/-- The opcodes of R122 that hold an instruction, from the first to the last of each range. -/
def scalarAssigned : List (Nat × Nat) := [(1, 42), (48, 58), (64, 100), (104, 110)]

/-- The opcodes of R126 that hold an instruction or the clause header. -/
def laneAssigned : List (Nat × Nat) :=
  [(1, 30), (64, 75), (96, 107), (112, 119), (128, 132), (160, 164), (176, 178), (192, 197), (255, 255)]

/-- No range holds the opcode. -/
def Outside (ranges : List (Nat × Nat)) (op : Nat) : Prop := ∀ r ∈ ranges, op < r.1 ∨ r.2 < op

/-! ### Waiting for operations and faults -/

/-- No deferred fault of the group waits to be delivered (R156, R217): those of both modes count (log 124). -/
def NoFault (g : Group) : Prop := g.deferred = []

/-- What `fence.rel` waits for has happened, and no deferred fault waits (R69). -/
structure Released (s : State) (g : Group) : Prop where
  lanes : g.ctx.laneIdle = true
  done  : s.relDone g = true
  calm  : NoFault g

/-- The deferred fault of the group that is earliest in issue order (R156, R217). -/
structure Earliest (g : Group) (e : Deferred) : Prop where
  mem   : e ∈ g.deferred
  first : ∀ x ∈ g.deferred, e.op ≤ x.op

/-- A deferred fault is delivered at the instruction that waits for it (R156, R310). -/
def delivers (s : State) (g : Group) (d : Deferred) : State :=
  s.raise g 3 { d.trap with
    resume := g.ctx.pc, op := some d.op, pc := if d.trap.lane then g.ctx.pc else d.trap.pc }

/-! ### Scalar accesses -/

/-- What lets a scalar access issue once its checks have passed: the lane stream (R55), the commit token (R38), room in the
flag and the path counter (R59, R132). -/
structure MayIssue (s : State) (g : Group) (write : Bool) (flag : Option Nat) (a : Acc) (sd : Bool) : Prop where
  window : a.isAlias = true → g.ctx.laneIdle = true
  token  : sd = true → write = true → (s.gridOf g).strict = true → s.holdsToken g = true
  room   : g.ctx.canRaise flag [a.path] = true

/-- The access is issued: the translations it used count as used, its operation joins those in flight, its flag and path counter
rise, and the stream goes on (R59, R147). -/
def accessIssued (s : State) (c : Cur) (g : Group) (flag : Option Nat) (k : MemKind) (d : Dst) (a : Acc) : State :=
  goesOn (s.useAcc g a) g
    (Group.push { g with pageWait := none }
      { work := .mem k d [a], flag := flag, paths := [a.path], slot := 3, pc := g.ctx.pc, word := word c.word })

/-- A scalar load, store or atomic, with what it does, its alignment, its bytes, whether it has an offset, and the registers from
gD on that it reads. -/
def scalarAccesses : List ((Reg → Reg → FlagField → BitVec 7 → Instr) × AccKind × Nat × Nat × Bool × Nat) :=
  loadRows.map (fun e => (e.1, .read, 1, e.2.1, true, 0)) ++ storeRows.map (fun e => (e.1, .write, 1, e.2, true, 1)) ++
  (List.range 10).flatMap (fun k =>
    [(fun d a f _ => .atom d a f false (BitVec.ofNat 4 k), .atomic, 4, 4, false, if k = 9 then 2 else 1),
     (fun d a f _ => .atom d a f true (BitVec.ofNat 4 k), .atomic, 8, 8, false, if k = 9 then 4 else 2)])

/-- No watchpoint of any core is enabled (R385). -/
def NoWatch (s : State) : Prop := ∀ die core k, core < 128 → k < 4 → (s.reg die (dbWpCtl core k)).getLsbD 31 = false

/-- A memory operation of accesses of one run of `n` bytes each in a memory of their own stack, none performed before, whose turn to
return has come (`Group.mayReturn`): nothing of it waits for a page, for the token, for an answer, or for an earlier access, none of its lanes is parked
(R218), and no watchpoint concerns it. -/
structure Accessing (s : State) (u op : Nat) (g : Group) (o : Op) (k : MemKind) (d : Dst) (accs : List (Acc × Space × Nat))
    (n : Nat) : Prop where
  group : s.group? u = some g
  oper  : g.op? op = some o
  work  : o.work = .mem k d (accs.map (·.1))
  runs  : ∀ e ∈ accs, e.1.locs = [(.mem e.2.1 e.2.2, n)]
  fresh : ∀ e ∈ accs, e.1.performed = false ∧ e.1.held = false ∧ e.1.slice = false ∧ e.1.peer = false
  whole : o.parked = 0
  turn  : g.mayReturn o k (accs.map (·.1)) = true
  quiet : NoWatch s ∧ o.seen = none

/-- Such an operation of one access. -/
def Returning (s : State) (u op : Nat) (g : Group) (o : Op) (k : MemKind) (d : Dst) (a : Acc) (sp : Space) (key n : Nat) : Prop :=
  Accessing s u op g o k d [(a, sp, key)] n

/-- A pair of uniform registers of the interrupted context that eight bytes have filled has valid checks again (log 6). -/
def pairLanded (s : State) (g : Group) (o : Op) (r : Nat) : State :=
  if o.level = 0 then s.heal .uniform (groupKey g.uid (4 * r)) 8 else s

/-- Such an operation of lanes: each lane has one access, and none of the bytes reads as uncorrectable. -/
structure LanesOnce (s : State) (accs : List (Acc × Space × Nat)) (n : Nat) : Prop where
  lanes : ((accs.map (·.1.lane)).Nodup) ∧ ∀ e ∈ accs, e.1.lane < 32
  clean : ∀ e ∈ accs, s.poisoned e.2.1 e.2.2 n = false

/-- A vector element of the registers of a level: the context's, or the shadow file. -/
def vecElem (g : Group) (level r l : Nat) : Word := Cells.get 0 (if level = 0 then g.vreg else g.svreg) (32 * r + l)

/-- Only the writes on the way of the two paths differ. -/
def OnlyPending (c c' : Ctx) : Prop :=
  c' = { c with p0 := { c.p0 with pend := c'.p0.pend }, p1 := { c.p1 with pend := c'.p1.pend } }

/-- The group `g'` holds words in lanes from register `r` on, as many as `n` bytes make, and every other vector element of the level
as in `g`; the operation is gone, and nothing but vector registers, writes on the way to them, flags and counters has changed. -/
structure Landed (g g' : Group) (o : Op) (r n : Nat) (accs : List (Acc × Space × Nat)) (v : Nat → Nat → Word) : Prop where
  there : ∀ (i : Fin accs.length) j, j < max 1 (n / 4) → vecElem g' o.level (r + j) accs[i].1.lane = v i j
  other : ∀ q l, l < 32 → ¬ (r ≤ q ∧ q < r + max 1 (n / 4) ∧ ∃ e ∈ accs, e.1.lane = l) →
    vecElem g' o.level q l = vecElem g o.level q l
  rest  : g' = { g.retire o with vreg := g'.vreg, svreg := g'.svreg, k := g'.k, h := g'.h }
  base  : o.level = 0 → g'.svreg = g.svreg ∧ g'.h = (g.retire o).h ∧ OnlyPending (g.retire o).k g'.k
  upper : o.level ≠ 0 → g'.vreg = g.vreg ∧ g'.k = (g.retire o).k ∧ OnlyPending (g.retire o).h g'.h

/-- The word `j` that a lane loads from its bytes: a byte or half is extended to a word (R209). -/
def loadedWord (n : Nat) (sgn : Bool) (bs : List Byte) (j : Nat) : Word :=
  if n < 4 then (if sgn then (BitVec.ofNat (8 * n) (leNat bs)).signExtend 32 else BitVec.ofNat 32 (leNat bs))
  else word (leNat ((bs.drop (4 * j)).take 4))

/-- Lanes one after another, in the order of their list, store a value of the old bytes and their operands (R213). -/
def lanesStore (f : Nat → Nat → Nat → Nat) (n : Nat) (s : State) (accs : List (Acc × Space × Nat)) : State :=
  accs.foldl (fun t e => t.writeMem e.2.1 e.2.2
    (leBytes n (f (leNat (t.readMem e.2.1 e.2.2 n)) (leNat (e.1.data.take n)) (leNat (e.1.data.drop n))))) s

/-- The new value of the atomics of R157 at width `w`: of the old value, the operand, and for `cas` the value compared with the
old one. -/
def atomTable (w : Nat) : List (Nat × (BitVec w → BitVec w → BitVec w → BitVec w)) :=
  [(0, fun x v _ => x + v), (1, fun x v _ => if v.toInt < x.toInt then v else x),
   (2, fun x v _ => if x.toInt < v.toInt then v else x), (3, fun x v _ => if v.toNat < x.toNat then v else x),
   (4, fun x v _ => if x.toNat < v.toNat then v else x), (5, fun x v _ => x &&& v), (6, fun x v _ => x ||| v),
   (7, fun x v _ => x ^^^ v), (8, fun _ v _ => v), (9, fun x e n => if x = e then n else x)]

/-- The new value of the atomics of R211 on `n` bytes of each lane: those of R157, and three on FP32. -/
def laneAtoms (n : Nat) : List (Nat × (Nat → Nat → Nat → Nat)) :=
  ((atomTable (8 * n)).map fun e =>
    (e.1, fun x v y => (e.2 (BitVec.ofNat (8 * n) x) (BitVec.ofNat (8 * n) v) (BitVec.ofNat (8 * n) y)).toNat)) ++
  (if n = 4 then [(10, fun x v _ => fp32.pack 0 (Machine.Num.sum false [fp32.num x, fp32.num v])),
    (11, fun x v _ => fp32.pick false x v), (12, fun x v _ => fp32.pick true x v)] else [])

/-- Some byte of the access lies at an address of a memory. -/
def Covers (s : State) (g : Group) (a : Acc) (sp : Space) (b : Nat) : Prop :=
  ∃ rs, a.locs.mapM (s.resolve g) = some rs ∧ ∃ r ∈ rs.flatten, ∃ key, r.1 = .mem sp key ∧ key ≤ b ∧ b < key + r.2

/-! ### What register-only instructions may write -/

/-- The uniform registers, the group predicates and the latched clock halves that a register-only scalar instruction may write. -/
structure Dests where
  regs  : List Nat := []
  preds : List Nat := []
  latch : Bool := false

/-- One register, or a pair. -/
def pairOf (d : Reg) (p : Bool) : List Nat := if p then [d.toNat, d.toNat + 1] else [d.toNat]

/-- The register-only scalar instructions, with what they may write: those of R149 to R154. -/
def registerOnly : Instr → Option Dests
  | .add d _ _ p | .sub d _ _ p | .mul d _ _ p | .and d _ _ p | .or d _ _ p | .xor d _ _ p | .andn d _ _ p | .shl d _ _ p
  | .shr d _ _ p | .sar d _ _ p | .rotl d _ _ p | .min d _ _ p | .minn d _ _ p | .max d _ _ p | .maxn d _ _ p | .clz d _ p
  | .ctz d _ p | .popc d _ p | .sext d _ p _ | .zext d _ p _ | .sel d _ _ p _ | .mov d _ p => some { regs := pairOf d p }
  | .mulh d _ _ | .mulhn d _ _ | .divi d _ _ | .divn d _ _ | .remi d _ _ | .remn d _ _ | .qget d | .addi d _ _ | .andi d _ _
  | .ori d _ _ | .xori d _ _ | .shli d _ _ | .shri d _ _ | .sari d _ _ | .movi d _ | .movhi d _ => some { regs := [d.toNat] }
  | .gmov d _ => some { regs := [d.toNat] }
  | .srd d n => some { regs := [d.toNat], latch := n == 0x0F || n == 0x11 }
  | .cmp q _ _ _ | .cmpi _ q _ _ | .qand q _ _ | .qor q _ _ | .qxor q _ _ | .qandn q _ _ | .qnot q _ => some { preds := [q.toNat] }
  | .qset _ => some { preds := [0, 1, 2, 3, 4, 5, 6] }
  | _ => none

/-! ### Places a jump may go to -/

/-- The byte offset lies in the scalar section of the mode, a whole word of it (R158). -/
def InSection (s : State) (g : Group) (t : Int) : Prop := 0 ≤ t ∧ t + 4 ≤ s.scalarSize g

/-! ### Feeds -/

/-- Some stream stands behind no observation of the flag of a feed yet: a lane, or the scalar stream (R255). -/
def Unobserved (f : Feed) : Bool := f.seen != BitVec.allOnes 32 || f.seenS.isNone

/-- The feeds of the context after an instruction that waits for the lane stream: what lanes stand behind, the scalar stream then stands
behind too (R67, R255). A handler's instruction changes none (R306). -/
def behindLanes (g : Group) : Group :=
  if g.mode = .kernel then
    { g with feeds := (g.feeds.map fun f =>
        { f with pastS := f.past != 0, seenS := if f.seen = 0 then f.seenS else some 0 }).filter Unobserved }
  else g

/-- The feeds of the context after an `fwait` of a mask: one whose flag the mask names, and behind which the scalar stream stands, is observed
for the lane blocks that are enqueued later, as many as are queued being the ones before (R67, R255). -/
def observedBy (g : Group) (m : BitVec 12) : Group :=
  if g.mode = .kernel then
    { g with feeds := (g.feeds.map fun f =>
        if f.flag < 12 ∧ m.getLsbD f.flag = true ∧ f.pastS = true then { f with seenS := some (f.seenS.getD g.ctx.queue.length) }
        else f).filter Unobserved }
  else g

/-- A register is a source of a strict feed that no lane of a path has observed: those of the context, not of a handler (R255, R259). -/
def PathFed (g : Group) (lanes : Word) (rs : List Nat) : Prop :=
  g.mode = .kernel ∧ ∃ f ∈ g.feeds, f.strict = true ∧ f.seen &&& lanes = 0 ∧ ∃ r ∈ rs, f.reg ≤ r ∧ r < f.reg + f.n

/-- The feeds of the context after the header of a clause with a wait mask: the lanes of a path stand behind what one of them does, and
those behind the `vfeed` of a flag of the mask have observed it (R67, R255). -/
def observedByPath (g : Group) (lanes : Word) (m : BitVec 12) : List Feed :=
  if g.mode = .kernel then
    (g.feeds.map fun f =>
      let past := if f.past &&& lanes = 0 then f.past else f.past ||| lanes
      let seen := if f.seen &&& lanes = 0 then f.seen else f.seen ||| lanes
      { f with
        past := past
        seen := if f.flag < 12 ∧ m.getLsbD f.flag = true ∧ past &&& lanes ≠ 0 then seen ||| lanes else seen }).filter Unobserved
  else g.feeds

/-- The feeds of the context as a lane block starts: all its lanes stand behind what any lane of the blocks before it did, and behind what
the scalar stream observed before it enqueued the block (R18, R67, R255). -/
def feedsAtStart (g : Group) : List Feed :=
  if g.mode = .kernel then
    (g.feeds.map fun f =>
      { f with
        past := if f.past = 0 then 0 else BitVec.allOnes 32
        seen := if f.seen ≠ 0 ∨ f.seenS = some 0 then BitVec.allOnes 32 else 0
        seenS := f.seenS.map (· - 1) }).filter Unobserved
  else g.feeds

/-! ### Handlers -/

/-- The modes in which a handler runs (R304, R307). -/
def Handler (g : Group) : Prop := g.mode = .handler ∨ g.mode = .nested

/-! ### Operations on tiles -/

/-- An operation on tiles is issued from a state `t`: it gets its place in tile order, its flag rises, and the stream goes on
(R130, R147, R248). -/
def tileIssued (t : State) (c : Cur) (g g' : Group) (f : FlagField) (w : Work) (wait : Option Nat) (seq : Nat) : State :=
  goesOn t g (g'.push { work := w, flag := flagOf f, pc := g.ctx.pc, word := word c.word, seq := seq, wait := wait })

/-- A descriptor word of tiles that lies in the window of its mode: the first tile and the number (R251, R260). -/
structure Tiles (g : Group) (w first n : Nat) : Prop where
  lowest : first = w % 2 ^ 10
  count  : n = w / 2 ^ 10 % 2 ^ 10 + 1
  zero   : w / 2 ^ 20 % 2 ^ 12 = 0
  inside : first + n ≤ g.window

/-- A draw command is issued with its descriptor and its place in issue order (R78, R266, R270, R274). -/
def drawIssued (s : State) (c : Cur) (g : Group) (f : FlagField) (w : Work) : State :=
  goesOn { s with fresh := s.fresh + 1 } g
    (g.push { work := w, flag := flagOf f, pc := g.ctx.pc, word := word c.word, seq := s.fresh })

/-! ### Trap entry -/

/-- The words of a frame (R310). -/
def frame (t : Trap) (nested : Bool) (i : Nat) : Word :=
  match i with
  | 0 => BitVec.ofNat 32 (t.code.num +
      (match t.delivery with | .precise => 0 | .deferred => 2 ^ 10 | .asynchronous => 2 * 2 ^ 10) +
      (if t.lane then 2 ^ 12 else 0) + t.slot * 2 ^ 13 + (if nested then 2 ^ 15 else 0) + t.laneIndex * 2 ^ 16)
  | 1 => t.pc
  | 2 => t.mask
  | 3 => t.info
  | 4 => BitVec.ofNat 32 t.address
  | 5 => BitVec.ofNat 32 (t.address / 2 ^ 32 % 2 ^ 16)
  | 6 => t.resume
  | _ => t.word

/-- A group with no trap pending and no path inside a clause: a trap is entered at once (R309, R312). -/
structure AtRest (g : Group) : Prop where
  paths : g.atBoundary = true
  none_ : g.trapS = none ∧ g.trap0 = none ∧ g.trap1 = none
  watch : g.watch = [] ∧ g.stepTraps = []

/-- The state of a handler right after an entry at an offset (R305 to R307): nothing queued, no flag and no counter up, no path in
use; the predicate shadow set as it was. -/
def FreshHandler (old new : Ctx) (entry : Nat) : Prop :=
  new.pc = BitVec.ofNat 32 entry ∧ new.queue = [] ∧ new.busy = false ∧ new.p0 = {} ∧ new.p1 = {} ∧ new.s0 = [] ∧ new.s1 = [] ∧
  (∀ f ∈ new.flags, f = 0) ∧ new.flags.length = 12 ∧ (∀ n ∈ new.paths, n = 0) ∧ new.paths.length = 5 ∧ new.q = old.q ∧
  new.preds = old.preds

/-! ### Modes and windows -/

/-- The instructions that kernel mode refuses (R304). -/
def handlerInstrs (d a b : Reg) (x y : BitVec 9) (k : BitVec 7) : List Instr :=
  [.eret, .eretSave, .eretTerm a, .prd x y k, .pwr x y k, .tlbinv d b, .tlbsync]

/-- The instructions that handler mode refuses, with the uniform registers they name (R259, R306). -/
def kernelInstrs (d a b : Reg) (n : BitVec 4) (m : BitVec 16) (x : BitVec 6) (f : FlagField) (k : BitVec 2) :
    List (Instr × List Nat) :=
  [(.bar d n, [d.toNat]), (.bara d n, [d.toNat]), (.barw n, []), (.swpt m, []), (.cpass, []),
   (.launch a, [a.toNat, a.toNat + 1]), (.join a, [a.toNat]), (.exit, []), (.xwait x, []),
   (.dpos a d f, [a.toNat, a.toNat + 1, d.toNat]), (.ddraw a d b f, [a.toNat, a.toNat + 1, d.toNat, b.toNat]),
   (.mfifoClaim a b k, [a.toNat, b.toNat]), (.mfifoRelease k, []), (.mfifoSethead a k, [a.toNat])]

/-- Scalar instructions with the uniform registers that their fields name, in the order in which the fields are checked, and those
that they read. -/
def windowed (d a b : Reg) (p : Bool) (q : QReg) (k n4 : BitVec 4) (n2 : BitVec 2) (i11 : BitVec 11) (i16 : BitVec 16)
    (i5 : BitVec 5) (f : FlagField) (o : BitVec 7) : List (Instr × List Reg × List Nat) :=
  let d' := d.toNat
  let a' := a.toNat
  let b' := b.toNat
  pairRows.map (fun e => (e.1 d a b p, [d, a, b], [a', b'])) ++ wordRows.map (fun e => (e.1 d a b, [d, a, b], [a', b'])) ++
  shiftRows.map (fun e => (e.1 d a b p, [d, a, b], [a', b'])) ++ countRows.map (fun e => (e.1 d a p, [d, a], [a'])) ++
  immRows.map (fun e => (e.1 d a i11, [d, a], [a'])) ++ immShiftRows.map (fun e => (e.1 d a i5, [d, a], [a'])) ++
  loadRows.map (fun e => (e.1 d a f o, [d, a], [a'])) ++ storeRows.map (fun e => (e.1 d a f o, [d, a], [d', a'])) ++
  [(.sext d a p n2, [d, a], [a']), (.zext d a p n2, [d, a], [a']), (.cmp q a b k, [a, b], [a', b']), (.cmpi k q a i11, [a], [a']),
   (.qget d, [d], []), (.qset a, [a], [a']), (.sel d a b p q, [d, a, b], [a', b']), (.mov d a p, [d, a], [a']),
   (.movi d i16, [d], []), (.movhi d i16, [d], [d']),
   (.atom d a f p k, [d, a], a' :: upFrom d' ((if k = 9 then 2 else 1) * (if p then 2 else 1))), (.jr a, [a], [a']),
   (.loop d i11, [d], [d']), (.lrunx a b, [a, b], [a', b']), (.waitp a n4, [a], [a']), (.waitz a, [a], [a']), (.mfifoHead a n2, [a], [])]

/-- The bytes of a translation meet the `n` pages of a `tlbinv` from `va` on, all of them where n is 0 (R317). -/
def Meets (va n x len : Nat) : Prop := n = 0 ∨ (va < x + len ∧ x < va + 4096 * n)

/-! ### Words of the lane stream -/

/-- The path that `cur` names issues lane instruction `i`, and nothing bars it (R126, R130, R255, R260); `x` is what it sees: its
operands, the active lanes whose guard holds, the group after its path has passed it. -/
structure LaneTurn (s : State) (i : Instr) (c : Cur) (g : Group) (x : LaneIn) : Prop where
  cur   : s.cur = some c
  group : s.group? c.group = some g
  ready : ∃ l r, i.laneRule = some (l, r) ∧ s.barred g c.slot i l r = none ∧ x = laneInput s g c.slot c.word l r

/-- The instruction issues with a value for each lane, which register d holds `lat` clk later; a pair for the types of 64 bits
(R130, R176). -/
def laneWide (s : State) (x : LaneIn) (lat : Nat) (v : Nat → DWord) : State := s.finishLane x (x.mapWide lat v)
/-- The same with a value of one register for each lane. -/
def laneOne (s : State) (x : LaneIn) (lat : Nat) (v : Nat → Word) : State := s.finishLane x (x.map32 lat v)
/-- The same with a truth for each lane, which a lane predicate holds. -/
def laneTruth (s : State) (x : LaneIn) (lat reg : Nat) (v : Nat → Bool) : State := s.finishLane x (x.write [x.pred lat reg v])
/-- The path stops at a precise trap on lanes of a mask (R216). -/
def laneTraps (s : State) (x : LaneIn) (code : Code) (mask info : Word) (addr : Nat) : State :=
  s.finishLane x (.trap code mask info addr)

/-- Element `j` of an operand in lane `n`, as an integer of its type (R91, R180). -/
def laneElem (x : LaneIn) (v : Val) (n j : Nat) : Int := elemInt x.l.ty (v.nat x.l.ty n / 2 ^ (elemBits x.l.ty * j))

/-- The integer instructions that work on elements (R180), with their result before it is taken modulo 2^w. -/
def laneIntRows (w : Nat) : List ((LaneOp → Instr) × (Int → Int → Int → Int)) :=
  [(.vadd, fun a b _ => a + b), (.vsub, fun a b _ => a - b), (.vmul, fun a b _ => a * b),
   (.vmulh, fun a b _ => (a * b).fdiv (2 ^ w : Nat)), (.vmad, fun a b c => a * b + c),
   (.vmin, fun a b _ => if b < a then b else a), (.vmax, fun a b _ => if a < b then b else a)]

/-- The logic instructions of R180 on all bits of a lane. -/
def laneBitRows : List ((LaneOp → Instr) × (DWord → DWord → DWord)) :=
  [(.vand, fun a b => a &&& b), (.vor, fun a b => a ||| b), (.vxor, fun a b => a ^^^ b), (.vnot, fun a _ => ~~~a),
   (.vandn, fun a b => a &&& ~~~b)]

/-- The shifts of R181 by an amount below the width. -/
def laneShiftRows (w : Nat) : List ((LaneOp → Instr) × (BitVec w → Nat → BitVec w)) :=
  [(.vshl, fun x n => x <<< n), (.vshr, fun x n => x >>> n), (.vsar, fun x n => x.sshiftRight n), (.vrotl, fun x n => x.rotateLeft n)]

/-- The rounding entries of R186: the exact result, with the sign of an exact zero that the mode gives. -/
def laneFloatRows : List ((LaneOp → Instr) × (Nat → Machine.Num → Machine.Num → Machine.Num → Machine.Num)) :=
  [(.vfadd, fun r a b _ => Machine.Num.sum (r == 3) [a, b]), (.vfsub, fun r a b _ => Machine.Num.sum (r == 3) [a, b.negate]),
   (.vfmul, fun _ a b _ => Machine.Num.mul a b), (.vfma, fun r a b c => Machine.Num.sum (r == 3) [Machine.Num.mul a b, c])]

/-- The other elementwise floating instructions (R187, R188, R190, R191), with their latency and their function on patterns. -/
def lanePatternRows : List ((LaneOp → Instr) × Nat × (Fmt → Nat → Nat → Nat → Nat)) :=
  [(.vfmin, 6, fun f _ a b => f.pick false a b), (.vfmax, 6, fun f _ a b => f.pick true a b),
   (.vfrnd, 6, fun f r a _ => f.integral r a), (.vfrac, 6, fun f _ a _ => f.fraction a), (.vclass, 6, fun f _ a _ => f.class a),
   (.vrcp, 12, fun f r a _ => f.rcp r a), (.vrsq, 12, fun f r a _ => f.rsq r a), (.vsqrt, 12, fun f r a _ => f.sqrt r a),
   (.vexp2, 12, fun f r a _ => f.exp2 r a), (.vlog2, 12, fun f r a _ => f.log2 r a), (.vsin, 12, fun f r a _ => f.sin r a),
   (.vcos, 12, fun f r a _ => f.cos r a), (.vtanh, 12, fun f r a _ => f.tanh r a)]

/-- An operation of a path: what it does, its flag and paths, where it was issued (R130, R214), and the slot that it keeps for a stop
(R385). -/
def laneOperation (x : LaneIn) (w : Work) (paths : List Nat) (stream : Nat := 3) : Op :=
  { work := w, flag := x.flag, paths := paths, lane := true, slot := pathIndex x.p x.slot, stream := stream, pc := x.g0.ctx.pc
    laneIndex := x.p.pc, word := word (x.word / 2 ^ 64), mask := x.ex }

/-- A collective with a uniform destination is issued (R205). -/
def laneUniform (s : State) (x : LaneIn) (vals : List Word) : State :=
  s.finishLane x (.go (x.g.push (laneOperation x (.collective x.l.vd.toNat vals) [])))

/-- An engine command is issued: it counts once on the base path (R279). -/
def laneCommand (s : State) (x : LaneIn) (w : Work) : State :=
  s.finishLane x (.go (x.g.push { laneOperation x w [4] x.slot.toNat with full := x.word }))

/-- An operation of a path on a tile or a stream is issued, with its place in order (R248, R253, R254). -/
def laneTile (s : State) (x : LaneIn) (w : Work) (f : Group → Group) : State :=
  ({ s with fresh := s.fresh + 1 } : State).finishLane x
    (.go (f (x.g.push { laneOperation x w [] with full := x.word, seq := s.fresh })))

/-- A lane memory instruction whose lanes all pass their checks and hold nothing for the token is issued: its operation holds the
access of each lane whose guard holds, and counts once on each path that it uses (R206, R214). -/
def laneAccess (s : State) (x : LaneIn) (k : MemKind) (d : Dst) (acc : Nat → Acc) (data : Nat → List Byte) : State :=
  let accs : List Acc := (lanesOf x.ex).map fun n => { acc n with lane := n, data := data n, held := false }
  (accs.foldl (fun (t : State) a => t.useAcc x.g0 a) s).finishLane x
    (.go (x.g.push { laneOperation x (.mem k d accs) (accs.map (·.path)).eraseDups x.slot.toNat with full := x.word }))

/-- The lanes of a memory instruction pass their checks: none traps, misses or waits for a page (R57, R207, R216), none is held
for the token (R219), the path is not one that issues again (R218), and its flag and counters have room (R214). -/
structure LanesPass (s : State) (x : LaneIn) (kind : AccKind) (align size : Nat) (addr : Nat → Int) (acc : Nat → Acc) : Prop where
  check : ∀ n, n < 32 → x.ex.getLsbD n = true → ∃ sd, s.check x.g kind align (addr n) size = .ok (acc n) sd ∧
    (sd = true → kind ≠ .read → (s.gridOf x.g0).strict = true → s.holdsToken x.g0 = true)
  again : x.p.again = none
  room  : x.g.ctx.canRaise x.flag ((lanesOf x.ex).map fun n => (acc n).path).eraseDups = true

/-- The address of a lane (R207): an even uniform pair, an index register scaled by the field of R125 unless it is switched off, and
a signed immediate. -/
def laneAddress (x : LaneIn) (sel : BitVec 8) (n : Nat) : Int :=
  (x.g.u64 (2 * x.l.va.toNat)).toNat +
    (if sel.getLsbD 7 then 0 else (lane x.b.lo n).toInt * (2 ^ x.l.rnd.toNat : Nat)) + x.l.imm.toInt

/-- The lanes that the paths of a context hold: those of the two masks, those that have arrived at a reconvergence index, and those that
an entry of a stack brings back (R220 to R225). -/
def heldLanes (c : Ctx) : Word :=
  (c.s0 ++ c.s1).foldl (fun m e => m ||| e.merge) (c.p0.mask ||| c.p0.w ||| c.p1.mask ||| c.p1.w)

/-- Each entry of a stack brings back the lanes above it. -/
def Nested : Word → List Entry → Prop
  | _, [] => True
  | m, e :: t => m &&& ~~~e.merge = 0 ∧ e.waitMask &&& ~~~e.merge = 0 ∧ Nested e.merge t

/-- The lanes of a slot are kept as R220 to R225 have them: a free slot has none, the lanes of a path come back with the entries of its
stack, and only a path with a reconvergence index has lanes that wait there. -/
structure SlotKept (p : Path) (stack : List Entry) : Prop where
  free : p.st = .free → p.mask = 0 ∧ p.w = 0 ∧ stack = []
  here : p.st = .arrived → p.w = 0 ∧ stack = []
  nest : Nested p.mask stack
  wait : p.rc = none ∨ (∃ e ∈ stack, e.outer = none) → p.w = 0

/-- Both slots are kept so. -/
def LanesKept (c : Ctx) : Prop := SlotKept c.p0 c.s0 ∧ SlotKept c.p1 c.s1

/-- Bytes of a lane that a load or store moves (R209). -/
def laneBytes (sel : BitVec 8) (t : Ty) : Nat :=
  if sel.toNat % 16 = 0 then 4 * t.regs else if sel.toNat % 16 = 1 then 1 else if sel.toNat % 16 = 2 then 2 else 16

/-- The lane memory instructions, with what they do, their alignment, their bytes and the selector of their address. -/
def laneAccesses (l : LaneOp) : List (Instr × AccKind × Nat × Nat × BitVec 8) :=
  [(.vld l, .read, 1, laneBytes l.vc l.ty, l.vc), (.vst l, .write, 1, laneBytes l.vd l.ty, l.vd),
   (.vatom l, .atomic, 4 * l.ty.regs, 4 * l.ty.regs, l.vc), (.vmred l, .atomic, 4 * l.ty.regs, 4 * l.ty.regs, l.vd)]

/-- The fixed-latency lane instructions, with the vector registers and the lane predicates that they may write (R180 to R199,
R201, R203). -/
def laneDests : Instr → Option (List Nat × List Nat)
  | .vadd l | .vsub l | .vmul l | .vmulh l | .vmad l | .vabs l | .vneg l | .vmin l | .vmax l | .vand l | .vor l | .vxor l | .vnot l
  | .vandn l | .vshl l | .vshr l | .vsar l | .vrotl l | .vclz l | .vpopc l | .vbrev l | .vbfe l | .vbfi l | .vsel l | .vcvt l
  | .vmov l | .vmovi l | .vscan l => some (upFrom l.vd.toNat l.ty.regs, [])
  | .vsad l | .vdp4 l | .vfadd l | .vfsub l | .vfmul l | .vfma l | .vfmin l | .vfmax l | .vfrnd l | .vfrac l | .vdot2 l | .vfscl l
  | .vclass l | .vrcp l | .vrsq l | .vsqrt l | .vexp2 l | .vlog2 l | .vsin l | .vcos l | .vtanh l | .vpack l | .vunpk l
  | .vquant l | .vquantScale l | .vsrd l | .vshfl l => some ([l.vd.toNat], [])
  | .vaddc l | .vsubb l => some ([l.vd.toNat], [l.vc.toNat])
  | .vcmp l | .vfcmp l => some ([], [l.vd.toNat])
  | .vpop l => some (if l.vc.toNat = 5 then ([l.vd.toNat], [])
                     else if l.vc.toNat < 5 then ([], [l.vd.toNat]) else ([], [0, 1, 2, 3, 4, 5, 6]))
  | .vnop _ | .vprf _ => some ([], [])
  | _ => none

/-- No debug stop of a path waits or steps it. -/
def CalmPaths (g : Group) : Prop := g.stop0 = {} ∧ g.stop1 = {}

/-- The clause has the flag that the instruction names, if it names one (R130). -/
def FlagNamed (g : Group) (slot : Bool) (l : LaneOp) (r : LaneRule) : Prop :=
  let p := (g.reach slot l.dist.toNat).ctx.path slot
  r.flag = true → (if l.slot then p.setB else p.setA) ≠ none

/-- The number that an instruction takes from its immediate, or in form 2 from the uniform register there, which it may read (R125). -/
def Names (s : State) (g : Group) (l : LaneOp) (n : Nat) : Prop :=
  (l.form ≠ .uni → l.imm.toNat = n) ∧
  (l.form = .uni → l.imm.toNat < g.ulimit ∧ s.badUni g [l.imm.toNat] = false ∧ (g.u l.imm.toNat).toNat = n)

/-! ### Words of the events -/

/-- Group `u` holds the operation `o` under its number (R214). -/
structure Pending (s : State) (u op : Nat) (g : Group) (o : Op) : Prop where
  group : s.group? u = some g
  op    : g.op? op = some o

/-- A mailbox command runs on a stack, for the partition that its word 0 names (R381). -/
structure Commanded (s : State) (die op part : Nat) : Prop where
  busy : (s.die die).mboxBusy = true
  op   : s.mboxN die 0 % 256 = op
  part : bits (s.mboxN die 0) 15 12 = part

/-- A command names a resident group of its partition, and with its selector streams that the group has (R381, R382). -/
structure Targeted (s : State) (die part : Nat) (g : Group) : Prop where
  fields : s.targetReserved die = false
  sel    : bits (s.mboxN die 1) 18 16 ∈ [0, 1, 3, 4]
  group  : s.target? die part = some g
  stream : bits (s.mboxN die 1) 18 16 = 4 ∨ g.hasStream (bits (s.mboxN die 1) 18 16) = true

/-- The streams of the group that the command selects. -/
def chosen (s : State) (die : Nat) (g : Group) : List Nat := g.selected (bits (s.mboxN die 1) 18 16)

/-- A packet of a queue stands at its turn: it waits for no page, and for no earlier grid of its queue (R86, R357). -/
structure PacketReady (s : State) (die q : Nat) (p : Packet) : Prop where
  packet : s.packet? die q = some p
  page   : p.wait = none
  order  : packetAcquire p.bytes = true → s.queueQuiet die q = true

/-- Nothing of the short packet is reserved: its reserved bits, and the alignment of its completion address (R355). -/
def shortOk (p : Packet) : Prop := shortReserved p.bytes = false ∧ packetCompletion p.bytes % 8 = 0

/-! ### Special values -/

/-- The special functions of R111 on FP32 patterns. -/
def specialRows : List (Nat → Nat → Nat) :=
  [fp32.rcp, fp32.rsq, fp32.sqrt, fp32.exp2, fp32.log2, fp32.sin, fp32.cos, fp32.tanh]

/-- The table of R112 on FP32 patterns: a function, its operand, its result. -/
def specialValues : List ((Nat → Nat → Nat) × Nat × Nat) :=
  [(fp32.rcp, 0, 0x7F800000), (fp32.rcp, 0x80000000, 0xFF800000), (fp32.rcp, 0x7F800000, 0), (fp32.rcp, 0xFF800000, 0x80000000),
   (fp32.rsq, 0, 0x7F800000), (fp32.rsq, 0x80000000, 0xFF800000), (fp32.rsq, 0x7F800000, 0), (fp32.rsq, 0xFF800000, 0x7FC00005),
   (fp32.sqrt, 0, 0), (fp32.sqrt, 0x80000000, 0x80000000), (fp32.sqrt, 0x7F800000, 0x7F800000),
   (fp32.sqrt, 0xFF800000, 0x7FC00005),
   (fp32.exp2, 0xFF800000, 0), (fp32.exp2, 0x7F800000, 0x7F800000), (fp32.exp2, 0, 0x3F800000), (fp32.exp2, 0x80000000, 0x3F800000),
   (fp32.log2, 0, 0xFF800000), (fp32.log2, 0x80000000, 0xFF800000), (fp32.log2, 0x3F800000, 0), (fp32.log2, 0x7F800000, 0x7F800000),
   (fp32.log2, 0xFF800000, 0x7FC00005),
   (fp32.sin, 0, 0), (fp32.sin, 0x80000000, 0x80000000), (fp32.sin, 0x7F800000, 0x7FC00005), (fp32.sin, 0xFF800000, 0x7FC00005),
   (fp32.cos, 0x7F800000, 0x7FC00005), (fp32.cos, 0xFF800000, 0x7FC00005),
   (fp32.tanh, 0, 0), (fp32.tanh, 0x80000000, 0x80000000), (fp32.tanh, 0x7F800000, 0x3F800000), (fp32.tanh, 0xFF800000, 0xBF800000)]

/-! ### Results of the engines -/

/-- What the buffer seals into a record (R281, R282): the low 232 bits as told, valid, and a check over bytes 0 to 29. -/
def Sealed (r x : Nat) (foreign overlap : Bool) : Prop :=
  x % 2 ^ 232 = r % 2 ^ 232 ∧ bits x 236 232 = 0 ∧ bitAt x 237 = true ∧ bitAt x 238 = overlap ∧ bitAt x 239 = foreign ∧
  x / 2 ^ 240 = crc16 (leBytes 30 (x % 2 ^ 240))

/-- The state with a record in slot `h` of a tile and the head moved on (R282). -/
def ringWritten (s : State) (die part : Nat) (v : View) (t r : Nat) : State :=
  let h := (Mem.byte s.sample (s.headKey die part v t)).toNat % 32
  (s.writeMem .sample (s.slotKey die part v t h) (leBytes 32 r)).writeMem .sample (s.headKey die part v t)
    [BitVec.ofNat 8 ((h + 1) % 32)]

/-- The words of no hit, of a trace that does not end, and of a reserved texture format (R287, R288, R290). -/
def noHit : List Word := [0x7F800000, 0xFFFFFFFF, 0, 0]

/-- What the base-tier engines and the draw unit find (R269, R276, R281 to R291), by the parts that the rules name. -/
structure EngineResults : Prop where
  seals : ∀ r foreign overlap, Sealed r (sealRecord r foreign overlap) foreign overlap
  swapped : ∀ r, bits (foreignCopy r) 31 0 = bits r 63 32 ∧ bits (foreignCopy r) 63 32 = bits r 31 0 ∧
    bits (foreignCopy r) 231 64 = bits r 231 64
  samp : ∀ (s : State) g o vw l ws t, l < 32 → (viewOf vw).tile (ws.getD 0 0) = some t →
    s.headBad g.die (s.partOf g) (viewOf vw) t = false → bitAt (recordNat ws) 238 = false →
    s.performSamp g o vw [(l, ws)] =
      (ringWritten s g.die (s.partOf g) (viewOf vw) t (sealRecord (recordNat ws) false false)).retireOp g.uid o none
  sampForward : ∀ (s : State) g o vw l ws t, l < 32 → (viewOf vw).tile (ws.getD 0 0) = some t →
    s.headBad g.die (s.partOf g) (viewOf vw) t = false → bitAt (recordNat ws) 238 = true →
    let s1 := ringWritten s g.die (s.partOf g) (viewOf vw) t (sealRecord (recordNat ws) false true)
    ∃ x : Forward, x.die = 1 - g.die ∧ x.part = s.partOf g ∧ x.view = vw ∧ x.record = leBytes 32 (foreignCopy (recordNat ws)) ∧
      s.performSamp g o vw [(l, ws)] = State.retireOp { s1 with forwards := s1.forwards ++ [x] } g.uid o none
  sampBad : ∀ (s : State) g o vw l ws t, l < 32 → (viewOf vw).tile (ws.getD 0 0) = some t →
    s.headBad g.die (s.partOf g) (viewOf vw) t = true →
    s.performSamp g o vw [(l, ws)] = s.retireOp g.uid o (some (unitFault o .uncorrectable 0 (laneBit l) 0))
  emptySlot : deliverable (List.replicate 32 0) = (List.replicate 32 0, false)
  badCheck : ∀ bs, leNat bs ≠ 0 → crc16 (bs.take 30) ≠ leNat bs / 2 ^ 240 → deliverable bs = (List.replicate 32 0, true)
  goodRecord : ∀ bs, leNat bs ≠ 0 → crc16 (bs.take 30) = leNat bs / 2 ^ 240 →
    deliverable bs = (if bitAt (leNat bs) 237 then bs else List.replicate 32 0, false)
  gathered : ∀ (s : State) g part v lane src dst,
    let tile := BitVec.toNat src % 2 ^ 15
    let h := (Mem.byte s.sample (s.headKey g.die part v tile)).toNat % 32
    let key := s.slotKey g.die part v tile ((h + 63 - bits (BitVec.toNat src) 20 16) % 32)
    s.headBad g.die part v tile = false → s.poisoned .sample key 32 = false →
      s.gatherLane g part v ((lane, src), (lane, dst)) = (lane, BitVec.toNat dst, some (s.readMem .sample key 32))
  landed : ∀ (s : State) die core share obj d bs t, d + 32 ≤ share.2 → obj + 16 ≤ share.2 →
    s.deliverTo die core share obj ((d, bs) :: t) =
      ((s.writeMem .core (coreKey die core (share.1 + d)) bs).landAt (coreKey die core (share.1 + obj)) 32).deliverTo die core share
        obj t
  stopped : ∀ (s : State) die core share obj d bs t, share.2 < d + 32 ∨ share.2 < obj + 16 →
    s.deliverTo die core share obj ((d, bs) :: t) = (true, s)
  unreceived : ∀ (s : State) g obj core rs, s.receiver g core = none → s.deliverCore g obj core rs = (true, s)
  gatherOne : ∀ (s : State) g o vw obj mask lane src dst part bs,
    s.gatherLane g part (viewOf vw) ((lane, src), (lane, dst)) = (lane, BitVec.toNat dst, some bs) →
    let s1 := if (deliverable bs).2 then s.duCount g.die (0x140 + 4 * part) else s
    let r := s1.deliverRows g (16 * (BitVec.toNat obj % 2 ^ 17)) [(BitVec.toNat dst, (deliverable bs).1)]
      ((List.range 8).filter fun r => bitAt mask r)
    s.performGather g o vw obj mask [(lane, src)] [(lane, dst)] part =
      r.2.retireOp g.uid o (if r.1 then some (unitFault o .sliceUnmapped 0 o.mask 0) else none)
  missed : ∀ (s : State) g root ws, rayOf ws = none → s.traceLane g root ws = .ok noHit
  traceNone : ∀ (s : State) g root ws r b used, rayOf ws = some r → s.columnRead g root 64 = .ok b used →
    reachable r (leNat b) = [] → s.traceLane g root ws = .ok noHit used
  traceLeaf : ∀ (s : State) g root ws r b used k lf more, rayOf ws = some r → s.columnRead g root 64 = .ok b used →
    reachable r (leNat b) = [(k, true)] → s.columnRead g (root + 64 * k) 64 = .ok lf more →
    s.traceLane g root ws = .ok (hitWords (leafHit r k lf)) (used ++ more)
  noHits : hitWords none = noHit
  hits : ∀ h, hitWords (some h) = [word (roundRat h.t), word h.id, word (roundRat h.b1), word (roundRat h.b2)]
  unended : incompleteWords = [0x7FC00005, 0xFFFFFFFE, 0, 0]
  leafWithin : ∀ r i lf h, leafHit r i lf = some h →
    r.lo ≤ h.t ∧ h.t ≤ r.hi ∧ 0 ≤ h.b1 ∧ 0 ≤ h.b2 ∧ h.b1 + h.b2 ≤ 1 ∧ h.id = wordAt lf 9 ∧ h.at_ = i
  probeNone : ∀ (s : State) g bins tris pos b used i,
    View.tile { w := bits bins 55 48 + 1, h := bits bins 63 56 + 1, base := 0 } pos = some i →
    s.columnRead g (bins % 2 ^ 48 + 8 * i) 8 = .ok b used → bits (leNat b) 47 32 = 0 →
    s.probeLane g bins tris pos = .ok noHit used
  probeOne : ∀ (s : State) g bins tris pos b used i tri more,
    View.tile { w := bits bins 55 48 + 1, h := bits bins 63 56 + 1, base := 0 } pos = some i →
    s.columnRead g (bins % 2 ^ 48 + 8 * i) 8 = .ok b used → bits (leNat b) 47 32 = 1 →
    s.columnRead g (tris + 48 * bits (leNat b) 31 0) 48 = .ok tri more →
    s.probeLane g bins tris pos = .ok (hitWords (coverHit (mkRat (pos.toNat % 65536 : Nat) 16) (mkRat (pos.toNat / 65536 : Nat) 16)
      0 tri)) (used ++ more)
  coverWithin : ∀ px py i tri h, coverHit px py i tri = some h →
    0 ≤ h.b1 ∧ 0 ≤ h.b2 ∧ h.b1 + h.b2 ≤ 1 ∧ h.id = wordAt tri 9 ∧ h.at_ = i
  texReserved : ∀ (s : State) g desc ws d used, s.columnRead g (desc / 64 * 64) 32 = .ok d used →
    2 < (textureOf (leNat d)).format → s.texRequest g desc ws = .ok (List.replicate 4 0x7FC00005) used
  texNearest : ∀ (s : State) g desc ws d used x y bs more, s.columnRead g (desc / 64 * 64) 32 = .ok d used →
    let t := textureOf (leNat d)
    let l := min (ws.getD 2 0).toNat t.levels
    t.format ≤ 2 → t.linear = false →
    x = wrapIndex t.clampU (((fp32.rat? (ws.getD 0 0).toNat).getD 0 * (t.width l : Rat)).floor) (t.width l) →
    y = wrapIndex t.clampV (((fp32.rat? (ws.getD 1 0).toNat).getD 0 * (t.height l : Rat)).floor) (t.height l) →
    s.columnRead g (t.level l + (y * t.width l + x) * t.texel) t.texel = .ok bs more →
    s.texRequest g desc ws = .ok ((List.range 4).map (t.filter [(1, bs)])) (used ++ more)
  texRgba8 : ∀ (t : Texture) bs c, t.format = 0 → t.filter [(1, bs)] c = word (roundRat (mkRat (bs.getD c 0).toNat 255))
  tokenNone : ∀ desc key ls, (∀ l ∈ ls, fp32.isNan l = true ∨ l = fp32.infBits true) →
    drawToken desc key ls = BitVec.allOnes 32
  tokenInf : ∀ invT ls, fp32.infBits false ∈ ls →
    tokenWeights invT ls = some (ls.map fun l => if l = fp32.infBits false then 2 ^ 31 else 0)
  topWeight : tokenWeight 0 = 2 ^ 31
  massKept : ∀ need sum x t, massPrefix need sum (x :: t) =
    if need ≤ (sum + x.2) * 2 ^ 16 then [x] else x :: massPrefix need (sum + x.2) t
  firstAbove : ∀ target sum x t, pickRunning target sum (x :: t) =
    if target < sum + x.2 then x.1 else pickRunning target (sum + x.2) t
  roundOut : ∀ (s : State) g o dst r key ws c, s.ownRange g r.packet 64 64 = .inl c →
    s.launchRound g o dst r key ws = s.retireOp g.uid o (some (unitFault o c 0 0 r.packet))
  roundFull : ∀ (s : State) g o dst r key ws off, s.ownRange g r.packet 64 64 = .inr off →
    s.poolFull g.die (s.partOf g) = true → s.launchRound g o dst r key ws = s
  roundBad : ∀ (s : State) g o dst r key ws off, s.ownRange g r.packet 64 64 = .inr off →
    s.poolFull g.die (s.partOf g) = false → s.ownBad g off 64 = true →
    s.launchRound g o dst r key ws = s.retireOp g.uid o (some (unitFault o .uncorrectable 0 0 r.packet))
  roundLaunched : ∀ (s : State) g o dst r key ws off ok t, s.ownRange g r.packet 64 64 = .inr off →
    s.poolFull g.die (s.partOf g) = false → s.ownBad g off 64 = false →
    let b := s.ownBytes g off 64
    let n := s.packetGroups g b
    let waves := (r.n + 31) / 32
    s.launchChild g (shapePacket b ((waves + n - 1) / n)) (fun k => some (roundWave r key ws k)) = .inl (ok, t) →
    s.launchRound g o dst r key ws =
      t.modGroup g.uid fun x => (x.landU o.level dst (if ok then word waves else BitVec.allOnes 32)).retire o

end Sys2Proof.Claims

open Sys2Proof Sys2Proof.Machine Sys2Proof.Claims

/-! ### Reset, the memories, the words -/

/-- Reset (R350, R352, R364, R377, R390, R392, R412, R417): the registers of the windows read their reset values, nothing is queued,
resident or valid, the clocks stand at 0, and no queue, partition or grid is there. That the memories and session time
are 0 is the model's choice (log 1, log 2). -/
def Obligations.ResetState : Prop :=
  (∀ die off, State.reset.reg die off = regReset off) ∧
  State.reset.groups = [] ∧ State.reset.blocks = [] ∧ State.reset.grids = [] ∧ State.reset.copies = [] ∧
  State.reset.parts = [] ∧ State.reset.tlbs = [] ∧ State.reset.upper = [] ∧ State.reset.lines = [] ∧ State.reset.bands = [] ∧ State.reset.clk = 0 ∧
  (∀ sp a, Mem.byte (State.reset.mem sp) a = 0) ∧
  (∀ die q, q < 32 → State.reset.queueState die q = 0) ∧
  (∀ die p, p < 16 → State.reset.reg die (dpWeight p) = 16 ∧ State.reset.reg die (dpMargin p) = 800 ∧
    State.reset.reg die (dpPoolCap p) = 4096)

/-- The memories of a state are in canonical form. -/
def Sys2Proof.Claims.CanonicalMemory (s : State) : Prop :=
  Memory.wf s.scene = true ∧ Memory.wf s.core = true ∧ Memory.wf s.bank = true ∧ Memory.wf s.sample = true

/-- The memories after reset are in the canonical form, the model's own, in which equal contents of the spaces of R44 are equal data. -/
def Obligations.ResetMemoryCanonical : Prop := CanonicalMemory State.reset

/-- Every step keeps the memories in the canonical form, the model's own, so that equal contents of the spaces of R44 are equal data. -/
def Obligations.StepKeepsMemoryCanonical : Prop :=
  ∀ s t, CanonicalMemory s → Machine.step s = .next t → CanonicalMemory t

/-- Memory laws (R3): bytes stored are read back in order, little-endian numbers come back, and every byte outside the run
reads as before. -/
def Obligations.MemoryReadAfterWrite : Prop :=
  (∀ (s : State) (sp : Space) a bs i b, sp = .scene ∨ sp = .core ∨ sp = .bank ∨ sp = .sample → bs[i]? = some b →
    Mem.byte ((s.writeMem sp a bs).mem sp) (a + i) = b) ∧
  (∀ (s : State) (sp sp' : Space) a bs k, (sp' ≠ sp ∨ k < a ∨ a + bs.length ≤ k) →
    Mem.byte ((s.writeMem sp a bs).mem sp') k = Mem.byte (s.mem sp') k) ∧
  (∀ (s : State) (sp : Space) a n v, sp = .scene ∨ sp = .core ∨ sp = .bank ∨ sp = .sample →
    leNat ((s.writeMem sp a (leBytes n v)).readMem sp a n) = v % 2 ^ (8 * n))

/-- Every instruction of the scalar stream has a word, and where it is well-formed it decodes from it, with every operand at every
value (R119 to R122). -/
def Obligations.ScalarEncodingRoundTrip : Prop :=
  (∀ i w, i.wf = true → encodeScalar i = some w → w < 2 ^ 32 ∧ decodeScalar w = .instr i) ∧
  (∀ i, scalarStream i = true → (encodeScalar i).isSome = true)

/-- Every lane instruction and clause header has a word, and where it is well-formed it decodes from it (R124 to R128, R136). -/
def Obligations.LaneEncodingRoundTrip : Prop :=
  (∀ i w, i.wf = true → encodeLane i = some w → w < 2 ^ 96 ∧ decodeLane w = .instr i ∧ decodeTableWord 96 w = some i) ∧
  (∀ i, laneStream i → (encodeLane i).isSome = true)

/-- The worked words of the spec decode as it says (R151, R157, R160, R166, R265). -/
def Obligations.WorkedWordsDecode : Prop :=
  decodeScalar 0x36081842 = .instr (.cmp 2 3 4 2) ∧ decodeScalar 0x74283089 = .instr (.atom 10 6 1 false 9) ∧
  decodeScalar 0x50100000 = .instr (.movi 4 0) ∧ decodeScalar 0x5017FD00 = .instr (.movi 5 0xFF40) ∧
  decodeScalar 0x52140000 = .instr (.movhi 5 0) ∧ decodeScalar 0x701C2780 = .instr (.stW 7 4 15 0) ∧
  decodeScalar 0x68202000 = .instr (.ldW 8 4 0 0) ∧ decodeScalar 0x98000004 = .instr (.fwait 1) ∧
  decodeScalar 0x02183080 = .instr (.add 6 6 8 false) ∧ decodeScalar 0x40102004 = .instr (.addi 4 4 4) ∧
  decodeScalar 0x8A1C07FB = .instr (.loop 7 0x7FB) ∧ decodeScalar 0x8C000000 = .instr .exit ∧
  decodeScalar 0xA0000000 = .instr .fenceAcq ∧ decodeScalar 0xA0000001 = .instr .fenceRel ∧
  decodeScalar 0xA0000002 = .instr .fenceAr ∧ decodeScalar 0xA0000003 = .instr .opfence ∧
  decodeScalar 0xC050B000 = .instr (.dkey 20 22)

/-- Words of opcodes that hold no instruction are the event that takes ILLEGAL_OPCODE (R122, R126, R137): a scalar word whose bits 31:25
name none of R122, a lane word whose bits 95:88 name none of R126 and are no header; and that event takes it at the word, in the
stream that reached it. -/
def Obligations.UnassignedOpcodes : Prop :=
  (∀ w, w < 2 ^ 32 → scalarUnassigned (w / 2 ^ 25) = true → decodeScalar w = .instr (.unassignedOpcodeIssue false w)) ∧
  (∀ w, w < 2 ^ 32 → Outside scalarAssigned (w / 2 ^ 25) → decodeScalar w = .instr (.unassignedOpcodeIssue false w)) ∧
  (∀ w, w < 2 ^ 96 → Outside laneAssigned (w / 2 ^ 88) → decodeLane w = .instr (.unassignedOpcodeIssue true w)) ∧
  (∀ (s : State) c g w, s.cur = some c → s.group? c.group = some g →
    exec (.unassignedOpcodeIssue false w) s =
      .next (s.raise g 3 { code := .illegalOpcode, pc := g.ctx.pc, resume := g.ctx.pc, word := word w })) ∧
  (∀ (s : State) c g w, s.cur = some c → s.group? c.group = some g →
    exec (.unassignedOpcodeIssue true w) s =
      .next (s.raise g c.slot.toNat (laneTrap g c.slot w .illegalOpcode (g.ctx.path c.slot).active 0 0)))

/-! ### The step -/

/-- A stream whose turn is next, with nothing that holds it back, runs the instruction that its word decodes to (R19, R137): the
scalar stream of a group, but an `fwait` while lane code enqueued before it is about to raise one of its flags, which issues later (its
timing, which R19 leaves open, is the model's choice, log 119); a lane path inside its clause, or at a clause boundary where a header stands (R128, R129). A word whose reserved
bits or fields are not as its entry says takes RESERVED_FIELD there (R120, R126, R128), on the lanes whose guard holds in a lane path, or, of
an opcode that kernel mode may not execute, PRIVILEGED in kernel mode; a lane word out of its place takes ILLEGAL_OPCODE. -/
def Obligations.StepRunsWords : Prop :=
  (∀ (s : State) u rest g w t, ScalarReady s u rest g w t →
    (∀ i, decodeScalar w = .instr i → t.issuesLater g i = false → Machine.step s = exec i t) ∧
    (∀ i, decodeScalar w = .instr i → t.issuesLater g i = true → Machine.step s = .next (waits t g 7)) ∧
    (∀ i, (∀ m, i ≠ .fwait m) ∨ (g.ctx.queue = [] ∧ g.ctx.busy = false) → t.issuesLater g i = false) ∧
    (∀ priv, decodeScalar w = .reserved priv → Machine.step s = .next (t.raise g 3
      { code := if priv = true ∧ g.mode = .kernel then .privileged else .reservedField, pc := g.ctx.pc, resume := g.ctx.pc
        word := word w }))) ∧
  (∀ (s : State) u slot rest g w t, LaneReady s u slot rest g w t → InPlace (g.ctx.path slot) w →
    (∀ i, decodeLane w = .instr i → Machine.step s = exec i t) ∧
    (∀ priv, decodeLane w = .reserved priv → ∃ m : Word,
      Machine.step s = .next (t.raise g slot.toNat (laneTrap g slot w .reservedField m 0 0)) ∧
      (laneOpcode w = 0xFF → m = (g.ctx.path slot).active) ∧
      (laneOpcode w ≠ 0xFF → ∀ n, n < 32 → m.getLsbD n =
        ((g.ctx.path slot).active.getLsbD n && (g.ctx.pget (w / 2 ^ 82 % 8) n != w.testBit 81))))) ∧
  (∀ (s : State) u slot rest g w t, LaneReady s u slot rest g w t → ¬ InPlace (g.ctx.path slot) w →
    (g.ctx.path slot).xAt = none → (g.ctx.path slot).serial = none →
    Machine.step s = .next (t.raise g slot.toNat (laneTrap g slot w .illegalOpcode (g.ctx.path slot).active 0 0)))

/-- An event whose turn is next is taken as one step, and where nothing is left the next clk begins: the clk counter rises by
one, the clocks of R403 move on, the inputs that are due leave their queue, the turns are laid out anew, the marks of the last clk are taken
away, the wait of a peer access is dated (R345) and a pin whose blocks have left ends (R335); nothing else changes. The order of turns
within a clk that R19 leaves open is the model's (log 3). -/
def Obligations.StepRunsEvents : Prop :=
  (∀ (s : State) i rest, s.agenda = .event i :: rest → Machine.step s = exec i { s with agenda := rest, cur := none }) ∧
  (∀ s : State, s.agenda = [] → ∃ t, Machine.step s = .next t ∧
    t = { s with
      clk := s.clk + 1
      port0 := { s.port0 with ptp := s.port0.ptp + (5 * (s.clk + 1) / 8 - 5 * s.clk / 8) }
      port1 := { s.port1 with ptp := s.port1.ptp + (5 * (s.clk + 1) / 8 - 5 * s.clk / 8) }
      stime := t.stime, slew := t.slew, agenda := t.agenda, usedS := [], usedL := [], cur := none
      inputs := s.inputs.filter fun x => s.clk + 1 < x.1
      groups := t.groups, tlbs := t.tlbs } ∧
    (∃ f : Group → Op → Option Nat, t.groups = s.groups.map fun g => { g with
      issued := false, yielded := false, whyL := none
      ops := g.ops.map fun o => { o with since := f g o } }) ∧
    (∃ f : Tlb → Bool, t.tlbs = s.tlbs.map fun e => { e with pinned := e.pinned && f e }) ∧
    s.stime ≤ t.stime)

/-! ### Scalar arithmetic -/

/-- Results of the rows of R149: those with a pair form modulo 2^w, w = 32 or 64; high products, quotients and remainders, where
division never faults, and a divisor of 0 gives all ones and the dividend (R150). That a pair which is written whole has valid checks again
is the model's choice (log 6). -/
def Obligations.ScalarArithmetic : Prop :=
  (∀ e ∈ pairRows, ∀ (s : State) c g d a b, Scalar s c g [d.toNat, a.toNat, b.toNat] [a.toNat, b.toNat] →
    exec (e.1 d a b false) s = .next (goesOn s g (g.setU d.toNat (e.2 32 (g.u a.toNat) (g.u b.toNat)))) ∧
    exec (e.1 d a b true) s = .next (pairDone s g d (g.setU64 d.toNat (e.2 64 (g.u64 a.toNat) (g.u64 b.toNat))))) ∧
  (∀ e ∈ wordRows, ∀ (s : State) c g d a b, Scalar s c g [d.toNat, a.toNat, b.toNat] [a.toNat, b.toNat] →
    exec (e.1 d a b) s = .next (goesOn s g (g.setU d.toNat (e.2 (g.u a.toNat) (g.u b.toNat)))))

/-- Shifts and the rotation by an amount below the width, and RESERVED_FIELD for any other amount, with no state changed
before the trap (R149, R150). That a pair which is written whole has valid checks again is the model's choice (log 6). -/
def Obligations.ScalarShifts : Prop :=
  ∀ e ∈ shiftRows, ∀ (s : State) c g d a b, Scalar s c g [d.toNat, a.toNat, b.toNat] [a.toNat, b.toNat] →
    ((g.u b.toNat).toNat < 32 →
      exec (e.1 d a b false) s = .next (goesOn s g (g.setU d.toNat (e.2 32 (g.u a.toNat) (g.u b.toNat).toNat)))) ∧
    ((g.u b.toNat).toNat < 64 →
      exec (e.1 d a b true) s = .next (pairDone s g d (g.setU64 d.toNat (e.2 64 (g.u64 a.toNat) (g.u b.toNat).toNat)))) ∧
    (32 ≤ (g.u b.toNat).toNat → exec (e.1 d a b false) s = .next (traps s c g .reservedField 0 0)) ∧
    (64 ≤ (g.u b.toNat).toNat → exec (e.1 d a b true) s = .next (traps s c g .reservedField 0 0))

/-- `clz`, `ctz` and `popc` write the count of their value, in the pair form with a high word of 0; `sext` and `zext` widen the
low 8 or 16 bits of gA, in the pair form also 32 (R149, R150). That a pair which is written whole has valid checks again is the model's
choice (log 6). -/
def Obligations.ScalarCountsAndExtensions : Prop :=
  (∀ e ∈ countRows, ∀ (s : State) c g d a, Scalar s c g [d.toNat, a.toNat] [a.toNat] →
    (∃ r, e.2 32 (g.u a.toNat) r ∧ exec (e.1 d a false) s = .next (goesOn s g (g.setU d.toNat (BitVec.ofNat 32 r)))) ∧
    (∃ r, e.2 64 (g.u64 a.toNat) r ∧ exec (e.1 d a true) s = .next (pairDone s g d (g.setU64 d.toNat (BitVec.ofNat 64 r))))) ∧
  (∀ (s : State) c g d a (n : BitVec 2), Scalar s c g [d.toNat, a.toNat] [a.toNat] → n ≠ 3 →
    (n ≠ 2 →
      exec (.sext d a false n) s =
        .next (goesOn s g (g.setU d.toNat (((g.u a.toNat).setWidth (8 * 2 ^ n.toNat)).signExtend 32))) ∧
      exec (.zext d a false n) s =
        .next (goesOn s g (g.setU d.toNat (((g.u a.toNat).setWidth (8 * 2 ^ n.toNat)).setWidth 32)))) ∧
    exec (.sext d a true n) s =
      .next (pairDone s g d (g.setU64 d.toNat (((g.u a.toNat).setWidth (8 * 2 ^ n.toNat)).signExtend 64))) ∧
    exec (.zext d a true n) s =
      .next (pairDone s g d (g.setU64 d.toNat (((g.u a.toNat).setWidth (8 * 2 ^ n.toNat)).setWidth 64)))) ∧
  (∀ w, w / 2 ^ 25 = 0x19 ∨ w / 2 ^ 25 = 0x1A → w % 4 = 3 ∨ (w % 4 = 2 ∧ w.testBit 3 = false) → decodeScalar w = .reserved false)

/-- R151: `cmp` and `cmpi` write the truth of a condition to qN; conditions 10 to 15, and a `cmp` with d[6:3] nonzero, take
RESERVED_FIELD. -/
def Obligations.ScalarCompares : Prop :=
  (∀ e ∈ conditions, ∀ (s : State) c g q a b, Scalar s c g [a.toNat, b.toNat] →
    exec (.cmp q a b e.1) s = .next (goesOn s g (g.setCtx (g.ctx.qset q.toNat (e.2 (g.u a.toNat) (g.u b.toNat)))))) ∧
  (∀ e ∈ conditions, ∀ (s : State) c g q a (i : BitVec 11), Scalar s c g [a.toNat] →
    exec (.cmpi e.1 q a i) s = .next (goesOn s g (g.setCtx (g.ctx.qset q.toNat (e.2 (g.u a.toNat) (i.signExtend 32)))))) ∧
  (∀ (q : QReg) (a b : Reg) (k : BitVec 4), k.toNat < 10 →
    decodeScalar (0x1B * 2 ^ 25 + q.toNat * 2 ^ 18 + a.toNat * 2 ^ 11 + b.toNat * 2 ^ 4 + k.toNat) = .instr (.cmp q a b k)) ∧
  (∀ (q : QReg) (a : Reg) (k : BitVec 4) (i : BitVec 11), k.toNat < 10 →
    decodeScalar (0x27 * 2 ^ 25 + k.toNat * 2 ^ 21 + q.toNat * 2 ^ 18 + a.toNat * 2 ^ 11 + i.toNat) = .instr (.cmpi k q a i)) ∧
  (∀ w, w / 2 ^ 25 = 0x1B → (w / 2 ^ 21 % 16 ≠ 0 ∨ 10 ≤ w % 16) → decodeScalar w = .reserved false) ∧
  (∀ w, w / 2 ^ 25 = 0x27 → 10 ≤ w / 2 ^ 21 % 16 → decodeScalar w = .reserved false)

/-- R152: the operations on group predicates, and the fields that take RESERVED_FIELD; a predicate that is written reads so, q7
stays true, and every other one keeps its value (R147). -/
def Obligations.GroupPredicates : Prop :=
  (∀ (s : State) c g (d a b : QReg), Scalar s c g [] →
    exec (.qand d a b) s = .next (goesOn s g (g.setCtx (g.ctx.qset d.toNat (g.ctx.qget a.toNat && g.ctx.qget b.toNat)))) ∧
    exec (.qor d a b) s = .next (goesOn s g (g.setCtx (g.ctx.qset d.toNat (g.ctx.qget a.toNat || g.ctx.qget b.toNat)))) ∧
    exec (.qxor d a b) s = .next (goesOn s g (g.setCtx (g.ctx.qset d.toNat (g.ctx.qget a.toNat ^^ g.ctx.qget b.toNat)))) ∧
    exec (.qandn d a b) s = .next (goesOn s g (g.setCtx (g.ctx.qset d.toNat (g.ctx.qget a.toNat && !g.ctx.qget b.toNat)))) ∧
    exec (.qnot d a) s = .next (goesOn s g (g.setCtx (g.ctx.qset d.toNat (!g.ctx.qget a.toNat))))) ∧
  (∀ (s : State) c g d, Scalar s c g [d.toNat] [] → ∃ v : Word, exec (.qget d) s = .next (goesOn s g (g.setU d.toNat v)) ∧
    (∀ n, n < 8 → v.getLsbD n = g.ctx.qget n) ∧ ∀ n, 8 ≤ n → v.getLsbD n = false) ∧
  (∀ (s : State) c g a, Scalar s c g [a.toNat] → ∃ x : Ctx, exec (.qset a) s = .next (goesOn s g (g.setCtx x)) ∧
    x = { g.ctx with q := x.q } ∧ ∀ n, n < 7 → x.qget n = (g.u a.toNat).getLsbD n) ∧
  (∀ (x : Ctx) n m v, n < 8 → m < 8 →
    (x.qset n v).qget m = if m = 7 then true else if m = n then v else x.qget m) ∧
  (∀ w, w / 2 ^ 25 = 0x1C → 7 ≤ w % 16 → decodeScalar w = .reserved false) ∧
  (∀ w, w / 2 ^ 25 = 0x1C → w % 16 < 4 → (w / 2 ^ 21 % 16 ≠ 0 ∨ w / 2 ^ 14 % 16 ≠ 0 ∨ w / 2 ^ 7 % 16 ≠ 0) →
    decodeScalar w = .reserved false) ∧
  (∀ w, w / 2 ^ 25 = 0x1C → w % 16 = 4 → (w / 2 ^ 21 % 16 ≠ 0 ∨ w / 2 ^ 14 % 16 ≠ 0 ∨ w / 2 ^ 4 % 128 ≠ 0) →
    decodeScalar w = .reserved false) ∧
  (∀ w, w / 2 ^ 25 = 0x1C → w % 16 = 5 → w / 2 ^ 4 % 2 ^ 14 ≠ 0 → decodeScalar w = .reserved false) ∧
  (∀ w, w / 2 ^ 25 = 0x1C → w % 16 = 6 → (w / 2 ^ 18 % 128 ≠ 0 ∨ w / 2 ^ 4 % 128 ≠ 0) → decodeScalar w = .reserved false)

/-- `sel` writes gA where qN is true and gB otherwise (R153); fn[2:0] names qN and fn[3] the pair form. That a pair which is written whole
has valid checks again is the model's choice (log 6). -/
def Obligations.ScalarSelect : Prop :=
  (∀ (s : State) c g d a b (q : QReg), Scalar s c g [d.toNat, a.toNat, b.toNat] [a.toNat, b.toNat] →
    exec (.sel d a b false q) s =
      .next (goesOn s g (g.setU d.toNat (if g.ctx.qget q.toNat then g.u a.toNat else g.u b.toNat))) ∧
    exec (.sel d a b true q) s =
      .next (pairDone s g d (g.setU64 d.toNat (if g.ctx.qget q.toNat then g.u64 a.toNat else g.u64 b.toNat)))) ∧
  (∀ (s : State) c g d a b p, Scalar s c g [d.toNat, a.toNat, b.toNat] [a.toNat, b.toNat] → exec (.sel d a b p 7) s = exec (.mov d a p) s) ∧
  (∀ (d a b : Reg) (q : QReg) (p : Bool), pairOk p [d, a, b] = true →
    decodeScalar (0x1D * 2 ^ 25 + d.toNat * 2 ^ 18 + a.toNat * 2 ^ 11 + b.toNat * 2 ^ 4 + 8 * p.toNat + q.toNat) =
      .instr (.sel d a b p q))

/-- Moves and immediates (R154). That a pair which is written whole has valid checks again is the model's choice (log 6). -/
def Obligations.ScalarMovesAndImmediates : Prop :=
  (∀ e ∈ immRows, ∀ (s : State) c g d a i, Scalar s c g [d.toNat, a.toNat] [a.toNat] →
    exec (e.1 d a i) s = .next (goesOn s g (g.setU d.toNat (e.2 (g.u a.toNat) i)))) ∧
  (∀ e ∈ immShiftRows, ∀ (s : State) c g d a (i : BitVec 5), Scalar s c g [d.toNat, a.toNat] [a.toNat] →
    exec (e.1 d a i) s = .next (goesOn s g (g.setU d.toNat (e.2 (g.u a.toNat) i.toNat)))) ∧
  (∀ (s : State) c g d a, Scalar s c g [d.toNat, a.toNat] [a.toNat] →
    exec (.mov d a false) s = .next (goesOn s g (g.setU d.toNat (g.u a.toNat))) ∧
    exec (.mov d a true) s = .next (pairDone s g d (g.setU64 d.toNat (g.u64 a.toNat)))) ∧
  (∀ (s : State) c g d (i : BitVec 16), Scalar s c g [d.toNat] [] →
    exec (.movi d i) s = .next (goesOn s g (g.setU d.toNat (i.signExtend 32)))) ∧
  (∀ (s : State) c g d (i : BitVec 16), Scalar s c g [d.toNat] →
    exec (.movhi d i) s =
      .next (goesOn s g (g.setU d.toNat (BitVec.ofNat 32 (i.toNat * 2 ^ 16 + (g.u d.toNat).toNat % 2 ^ 16))))) ∧
  (∀ (s : State) c g (d a : BitVec 9), Scalar s c g [d.toNat, a.toNat] [a.toNat] →
    exec (.gmov d a) s = .next (goesOn s g (g.setU d.toNat (g.u a.toNat))))

/-- Special reads (R14, R38, R41, R42): the values of the registers that name the place and shape of the work, its deadline, its place in
strict operation and the entries of its divergence stacks, the clocks with the latch of their high words, and RESERVED_FIELD for a number that R41 does not give to `srd`. -/
def Obligations.ScalarSpecialReads : Prop :=
  (∀ (s : State) c g d, Scalar s c g [d.toNat] [] →
    let b := s.blockOf g
    let k := s.gridOf g
    (∀ e ∈ ([(0x01, g.index), (0x02, b.index % k.x), (0x03, b.index / k.x % k.y), (0x04, b.index / (k.x * k.y)), (0x05, k.x),
        (0x06, k.y), (0x07, k.z), (0x08, k.threads), (0x09, g.core), (0x0A, g.die), (0x0B, g.quarter), (0x0C, b.variant),
        (0x0D, g.index / 64), (0x13, k.cls), (0x18, k.part), (0x19, k.depth)] : List (BitVec 11 × Nat)),
      exec (.srd d e.1) s = .next (goesOn s g (g.setU d.toNat (word e.2)))) ∧
    exec (.srd d 0x0F) s =
      .next (goesOn s g (Group.setU { g with stimeHi := word (s.stime / 2 ^ 32) } d.toNat (word s.stime))) ∧
    (k.nbhd = 0 → exec (.srd d 0x0E) s = .next (goesOn s g (g.setU d.toNat 0xFFFFFFFF))) ∧
    (k.nbhd ≠ 0 → exec (.srd d 0x0E) s = .next (goesOn s g (g.setU d.toNat (word (b.index % k.nbhd))))) ∧
    (k.cls < 2 → exec (.srd d 0x14) s = .next (goesOn s g (g.setU d.toNat (word k.deadline.toNat))) ∧
      exec (.srd d 0x15) s = .next (goesOn s g (g.setU d.toNat (word (k.deadline.toNat / 2 ^ 32))))) ∧
    (2 ≤ k.cls → exec (.srd d 0x14) s = .next (goesOn s g (g.setU d.toNat 0)) ∧
      exec (.srd d 0x15) s = .next (goesOn s g (g.setU d.toNat 0))) ∧
    (k.strict = true → exec (.srd d 0x1A) s = .next (goesOn s g (g.setU d.toNat (if s.holdsToken g then 3 else 1))) ∧
      exec (.srd d 0x1B) s = .next (goesOn s g (g.setU d.toNat (word (192 * b.index + g.index))))) ∧
    (k.strict = false → exec (.srd d 0x1A) s = .next (goesOn s g (g.setU d.toNat 0)) ∧
      exec (.srd d 0x1B) s = .next (goesOn s g (g.setU d.toNat 0))) ∧
    exec (.srd d 0x1C) s = .next (goesOn s g (g.setU d.toNat (word (g.ctx.s0.length + g.ctx.s1.length)))) ∧
    exec (.srd d 0x10) s = .next (goesOn s g (g.setU d.toNat g.stimeHi)) ∧
    exec (.srd d 0x11) s = .next (goesOn s g (Group.setU { g with clkHi := word (s.clk / 2 ^ 32) } d.toNat (word s.clk))) ∧
    exec (.srd d 0x12) s = .next (goesOn s g (g.setU d.toNat g.clkHi))) ∧
  (∀ (s : State) c g d (n : BitVec 11), Scalar s c g [d.toNat] [] → (n = 0 ∨ n = 0x16 ∨ n = 0x17 ∨ 0x1D ≤ n.toNat) →
    exec (.srd d n) s = .next (traps s c g .reservedField 0 0))

/-- A register that is written reads so; g0 stays zero; every other register of the file keeps its value, and nothing else of the
group changes (R92, R147). -/
def Obligations.UniformRegisterWrites : Prop :=
  (∀ (g : Group) r v n, (g.setU r v).u n = if n = 0 then 0 else if n = r then v else g.u n) ∧
  (∀ (g : Group) r v, r % 2 = 0 → r ≠ 0 → (g.setU64 r v).u64 r = v ∧ ∀ n, n ≠ r → n ≠ r + 1 → (g.setU64 r v).u n = g.u n) ∧
  (∀ (g : Group) r v, g.setU r v = { g with ureg := (g.setU r v).ureg, sureg := (g.setU r v).sureg } ∧
    (g.mode = .kernel → (g.setU r v).sureg = g.sureg) ∧ (g.mode ≠ .kernel → (g.setU r v).ureg = g.ureg))

/-! ### Scalar memory -/

/-- Scalar loads, stores and atomics whose checks pass are issued: what they read or write goes with their operation, their flag
and path counter rise, and the stream goes on (R59, R147, R155, R157). -/
def Obligations.ScalarMemoryIssue : Prop :=
  (∀ e ∈ loadRows, ∀ (s : State) c g d a f (o : BitVec 7) acc sd, Scalar s c g [d.toNat, a.toNat] [a.toNat] →
    s.check g .read 1 ((g.u64 a.toNat).toNat + o.toInt * e.2.1) e.2.1 = .ok acc sd → MayIssue s g false (flagOf f) acc sd →
    exec (e.1 d a f o) s =
      .next (accessIssued s c g (flagOf f) (.load e.2.1 e.2.2) (.uni d.toNat) { acc with data := [] })) ∧
  (∀ e ∈ storeRows, ∀ (s : State) c g d a f (o : BitVec 7) acc sd, Scalar s c g [d.toNat, a.toNat] →
    s.check g .write 1 ((g.u64 a.toNat).toNat + o.toInt * e.2) e.2 = .ok acc sd → MayIssue s g true (flagOf f) acc sd →
    exec (e.1 d a f o) s =
      .next (accessIssued s c g (flagOf f) .store .none { acc with data := leBytes e.2 (g.u64 d.toNat).toNat })) ∧
  (∀ (s : State) c g d a f (k : BitVec 4) acc sd, k.toNat < 10 →
    (Scalar s c g [d.toNat, a.toNat] (a.toNat :: upFrom d.toNat (if k = 9 then 2 else 1)) → s.check g .atomic 4 (g.u64 a.toNat).toNat 4 = .ok acc sd → MayIssue s g true (flagOf f) acc sd →
      exec (.atom d a f false k) s =
        .next (accessIssued s c g (flagOf f) (.atomic { op := k.toNat, size := 4 }) (.uni d.toNat) { acc with
          data := leBytes 4 (g.u d.toNat).toNat ++ if k = 9 then leBytes 4 (g.u (d.toNat + 1)).toNat else [] })) ∧
    (Scalar s c g [d.toNat, a.toNat] (a.toNat :: upFrom d.toNat (if k = 9 then 4 else 2)) → s.check g .atomic 8 (g.u64 a.toNat).toNat 8 = .ok acc sd → MayIssue s g true (flagOf f) acc sd →
      exec (.atom d a f true k) s =
        .next (accessIssued s c g (flagOf f) (.atomic { op := k.toNat, size := 8 }) (.uni d.toNat) { acc with
          data := leBytes 8 (g.u64 d.toNat).toNat ++ if k = 9 then leBytes 8 (g.u64 (d.toNat + 2)).toNat else [] })))

/-- Where a scalar access does not issue (R25, R38, R43, R55, R57, R59, R157): the trap of its checks with the address of the
access, a wait for a translation, which enters the queue of the walker where there is room and changes nothing else, for a page, for the
lane stream, for the token, or for room in its counters. An address of 2^48 or more, or below 0, takes ACCESS_VIOLATION, and an atomic off
its natural alignment MISALIGNED. That a wait for a translation counts as reason 12 is the model's choice (log 34), and so is the address
that an access out of range reports, its value modulo 2^48, 0 below 0 (log 128). -/
def Obligations.ScalarAccessStops : Prop :=
  (∀ e ∈ scalarAccesses, ∀ (s : State) c g d a f (o : BitVec 7) (va : Int),
    Scalar s c g [d.toNat, a.toNat] (a.toNat :: upFrom d.toNat e.2.2.2.2.2) →
    va = (g.u64 a.toNat).toNat + (if e.2.2.2.2.1 then o.toInt * e.2.2.2.1 else 0) →
    (∀ code x, s.check g e.2.1 e.2.2.1 va e.2.2.2.1 = .trap code x →
      exec (e.1 d a f o) s = .next (traps s c g code 0 x)) ∧
    (∀ x gone, s.check g e.2.1 e.2.2.1 va e.2.2.2.1 = .miss x gone → ∃ t : State, exec (e.1 d a f o) s = .next (waits t g 12) ∧
      t = s.walkFor g (s.asker g 0 e.2.1.num g.ctx.pc 0 x) ∧
      t = { s with die0 := { s.die0 with walks := t.die0.walks }, die1 := { s.die1 with walks := t.die1.walks } }) ∧
    (∀ x, s.check g e.2.1 e.2.2.1 va e.2.2.2.1 = .absent x → (s.gridOf g).aborts = false →
      exec (e.1 d a f o) s = .next (waits (s.joinPage g (x / 4096)) { g with pageWait := some (x / 4096) } 1)) ∧
    (∀ acc sd, s.check g e.2.1 e.2.2.1 va e.2.2.2.1 = .ok acc sd →
      (acc.isAlias = true → g.ctx.laneIdle = false → exec (e.1 d a f o) s = .next (waits s g 9)) ∧
      (acc.isAlias = false → sd = true → e.2.1 ≠ .read → (s.gridOf g).strict = true → s.holdsToken g = false →
        exec (e.1 d a f o) s = .next (waits s g 4)) ∧
      (acc.isAlias = false → sd = false → g.ctx.canRaise (flagOf f) [acc.path] = false →
        exec (e.1 d a f o) s = .next (waits s g 12))) ∧
    ((va < 0 ∨ 2 ^ 48 ≤ va) → exec (e.1 d a f o) s = .next (traps s c g .accessViolation 0 (va.toNat % 2 ^ 48))) ∧
    (0 ≤ va → va < 2 ^ 48 → va.toNat % e.2.2.1 ≠ 0 → exec (e.1 d a f o) s = .next (traps s c g .misaligned 0 va.toNat)))

/-- What returns (R155, R157, R59, R209 to R213): a load writes its register from little-endian bytes, extended to its width; a store
changes the bytes of its run and no other; an atomic stores its new value and writes the old one. Each lane of a vector load has its
words in its own element of the destination registers, and every other element stays; the lanes of an atomic act one after another, in the
order of their list, each on what the one before left, and a `vatom` writes what each found; the lanes of a `vmred` or a store write no
register. The operation is gone, and its flag and path counter fall. That eight bytes which reach a pair, and words which are
written whole, have valid checks again is the model's choice (log 6). A read of bytes that read as uncorrectable writes no register and
leaves UNCORRECTABLE as a deferred fault (R156, R411). -/
def Obligations.AccessReturn : Prop :=
  (∀ (s : State) u op g o r a sp key n sgn, n = 1 ∨ n = 2 → Returning s u op g o (.load n sgn) (.uni r) a sp key n →
    s.poisoned sp key n = false →
    let v : BitVec (8 * n) := BitVec.ofNat (8 * n) (leNat (s.readMem sp key n))
    exec (.accessReturn u op) s =
      .next (s.setGroup ((g.landU o.level r (if sgn then v.signExtend 32 else v.setWidth 32)).retire o))) ∧
  (∀ (s : State) u op g o r a sp key, Returning s u op g o (.load 4 false) (.uni r) a sp key 4 →
    s.poisoned sp key 4 = false →
    exec (.accessReturn u op) s = .next (s.setGroup ((g.landU o.level r (word (leNat (s.readMem sp key 4)))).retire o))) ∧
  (∀ (s : State) u op g o r a sp key, Returning s u op g o (.load 8 false) (.uni r) a sp key 8 →
    s.poisoned sp key 8 = false →
    exec (.accessReturn u op) s =
      .next ((pairLanded s g o r).setGroup (((g.landU o.level r (word (leNat (s.readMem sp key 4)))).landU o.level (r + 1)
        (word (leNat (s.readMem sp (key + 4) 4)))).retire o))) ∧
  (∀ (s : State) u op g o a sp key n, Returning s u op g o .store .none a sp key n → a.data.length = n →
    exec (.accessReturn u op) s = .next ((s.writeMem sp key a.data).setGroup (g.retire o))) ∧
  (∀ e ∈ atomTable 32, ∀ (s : State) u op g o r a sp key,
    Returning s u op g o (.atomic { op := e.1, size := 4 }) (.uni r) a sp key 4 → s.poisoned sp key 4 = false →
    let old : Word := word (leNat (s.readMem sp key 4))
    let new := e.2 old (word (leNat (a.data.take 4))) (word (leNat ((a.data.drop 4).take 4)))
    a.data.length = (if e.1 = 9 then 8 else 4) →
    exec (.accessReturn u op) s =
      .next ((s.writeMem sp key (leBytes 4 new.toNat)).setGroup ((g.landU o.level r old).retire o))) ∧
  (∀ e ∈ atomTable 64, ∀ (s : State) u op g o r a sp key,
    Returning s u op g o (.atomic { op := e.1, size := 8 }) (.uni r) a sp key 8 → s.poisoned sp key 8 = false →
    let old : DWord := BitVec.ofNat 64 (leNat (s.readMem sp key 8))
    let new := e.2 old (BitVec.ofNat 64 (leNat (a.data.take 8))) (BitVec.ofNat 64 (leNat ((a.data.drop 8).take 8)))
    a.data.length = (if e.1 = 9 then 16 else 8) →
    exec (.accessReturn u op) s =
      .next ((pairLanded (s.writeMem sp key (leBytes 8 new.toNat)) g o r).setGroup
        (((g.landU o.level r (loWord old)).landU o.level (r + 1) (hiWord old)).retire o))) ∧
  (∀ (s : State) u op g o r accs n sgn, n = 1 ∨ n = 2 ∨ n = 4 ∨ n = 8 ∨ n = 16 →
    Accessing s u op g o (.load n sgn) (.vec r) accs n → LanesOnce s accs n →
    ∃ g' : Group, exec (.accessReturn u op) s = .next (s.setGroup g') ∧
      Landed g g' o r n accs fun i j => loadedWord n sgn (((accs[i]?).map fun e => s.readMem e.2.1 e.2.2 n).getD []) j) ∧
  (∀ (s : State) u op g o accs n, Accessing s u op g o .store .none accs n → (∀ e ∈ accs, e.1.data.length = n) →
    exec (.accessReturn u op) s = .next ((lanesStore (fun _ v _ => v) n s accs).setGroup (g.retire o))) ∧
  (∀ (s : State) u op g o accs n, n = 4 ∨ n = 8 → ∀ e ∈ laneAtoms n, LanesOnce s accs n →
    (∀ x ∈ accs, x.1.data.length = (if e.1 = 9 then 2 * n else n)) →
    (Accessing s u op g o (.atomic { op := e.1, size := n }) .none accs n →
      exec (.accessReturn u op) s = .next ((lanesStore e.2 n s accs).setGroup (g.retire o))) ∧
    (∀ r, Accessing s u op g o (.atomic { op := e.1, size := n }) (.vec r) accs n →
      ∃ g' : Group, exec (.accessReturn u op) s = .next ((lanesStore e.2 n s accs).setGroup g') ∧
        Landed g g' o r n accs fun i j =>
          word (((accs[i]?).map fun x => leNat ((lanesStore e.2 n s (accs.take i)).readMem x.2.1 x.2.2 n)).getD 0 / 2 ^ (32 * j)))) ∧
  (∀ (s : State) u op g o k d a sp key n, Returning s u op g o k d a sp key n → k ≠ .store → s.poisoned sp key n = true →
    ∃ f : Deferred, f.trap.code = .uncorrectable ∧ f.trap.address = a.va ∧ f.op = o.id ∧
      exec (.accessReturn u op) s =
        .next (s.setGroup { g.retire o with
          deferred := g.deferred ++ [f] }))

/-- Frame of a return (R59, R73): whatever the operation, with no watchpoint that is enabled or that its lanes have met, every byte of every memory outside its
runs reads as before, and so does every byte where it loads; the windows, the grids, the blocks, the copies and every
other group are as before. -/
def Obligations.AccessReturnFrame : Prop :=
  ∀ (s t : State) u op, NoWatch s → (∀ g o, s.group? u = some g → g.op? op = some o → o.seen = none) →
    exec (.accessReturn u op) s = .next t →
    (∀ sp b, (∀ g o k d accs, s.group? u = some g → g.op? op = some o → o.work = .mem k d accs → k.writes = true →
        ∀ a ∈ accs, ¬ Covers s g a sp b) → Mem.byte (t.mem sp) b = Mem.byte (s.mem sp) b) ∧
    SameWindow s t ∧ OthersSame u s t ∧ t.grids = s.grids ∧ t.blocks = s.blocks ∧ t.copies = s.copies ∧ t.parts = s.parts ∧
    t.tlbs = s.tlbs

/-- Frame of the register-only scalar instructions (R149 to R154, R14): one that gives a next state takes a trap, or goes on with
a group in which every uniform register and predicate but those it names is as before, the clock latches too unless it is
an `srd` that sets them, and nothing else of the group has changed; every byte of memory, every window register and every
other group is as before. That a pair which is written whole reads as correct again is the model's choice (log 6). -/
def Obligations.ScalarFrame : Prop :=
  ∀ (s t : State) c g i ds, s.cur = some c → s.group? c.group = some g → Calm g → registerOnly i = some ds →
    exec i s = .next t →
    (∃ code info, t = traps s c g code info 0) ∨
    ∃ (s' : State) (g' : Group), t = goesOn s' g g' ∧ (s' = s ∨ ∃ d : Reg, pairOf d true = ds.regs ∧ s' = s.healPair g d.toNat) ∧
      (∀ n, n ∉ ds.regs → g'.u n = g.u n) ∧ (∀ n, n ∉ ds.preds → g'.ctx.qget n = g.ctx.qget n) ∧
      (g.mode = .kernel → g'.sureg = g.sureg ∧ g'.h.q = g.h.q) ∧ (g.mode ≠ .kernel → g'.ureg = g.ureg ∧ g'.k.q = g.k.q) ∧
      (ds.latch = false → g'.stimeHi = g.stimeHi ∧ g'.clkHi = g.clkHi) ∧
      g' = { g with
        ureg := g'.ureg, sureg := g'.sureg, k := { g.k with q := g'.k.q }, h := { g.h with q := g'.h.q }
        stimeHi := g'.stimeHi, clkHi := g'.clkHi } ∧
      SameMemory s t ∧ SameWindow s t ∧ OthersSame g.uid s t

/-- What the issue of a scalar instruction leaves behind, with no stop and no step of the stream (R19, R369): the turn of its quarter
is used, the block has issued, the group is the one the instruction leaves with its wait ended, in kernel mode with the skip of a
breakpoint (R382) and the wait in a barrier (R164) ended too, and nothing else changes but the record of the last issue (R391). -/
def Obligations.ScalarIssueFrame : Prop :=
  ∀ (s : State) (g : Group) pos, Calm g →
    let t := s.issued g 3 pos
    SameMemory s t ∧ SameWindow s t ∧ OthersSame g.uid s t ∧
    (∀ old, s.group? g.uid = some old →
      t.group? g.uid = some { g with
        issued := true, whyS := none, swDrain := false, waitPeer := none, waitMesh := false, leaves := []
        barAt := if g.mode = .kernel then none else g.barAt
        stopS := { g.stopS with skip := if g.mode = .kernel then none else g.stopS.skip } }) ∧
    t.blocks = s.blocks.map (fun b => if b.uid = g.block ∧ b.startClk = none then { b with startClk := some s.clk } else b) ∧
    t.usedS = g.quarterKey :: s.usedS ∧
    t = { s with
      groups := t.groups, blocks := t.blocks, usedS := t.usedS
      die0 := { s.die0 with lastIssue := t.die0.lastIssue }, die1 := { s.die1 with lastIssue := t.die1.lastIssue } }

/-! ### Scalar control flow -/

/-- Control flow (R158, R160): a target inside the section is where the stream goes on, one outside takes ACCESS_VIOLATION and
leaves every register, one that is no multiple of 4 MISALIGNED; `call` writes g1; `loop` counts down and branches until zero. A target of
`ret` or `jr` that is both takes MISALIGNED (log 107), and a `loop` on g0, which reads 0, branches (log 26): choices of the model. -/
def Obligations.ScalarControlFlow : Prop :=
  (∀ (s : State) c g (o : BitVec 21), Scalar s c g [] → let t : Int := g.ctx.pc.toNat + 4 * o.toInt
    (InSection s g t →
      exec (.jmp o) s = .next (jumps s g g (word t.toNat)) ∧
      exec (.call o) s = .next (jumps s g (g.setU 1 (g.ctx.pc + 4)) (word t.toNat)) ∧
      (∀ q n, g.ctx.qget (BitVec.toNat q) ≠ n → exec (.bq q n o) s = .next (jumps s g g (word t.toNat)))) ∧
    (¬ InSection s g t →
      exec (.jmp o) s = .next (traps s c g .accessViolation 0 0) ∧ exec (.call o) s = .next (traps s c g .accessViolation 0 0) ∧
      (∀ q n, g.ctx.qget (BitVec.toNat q) ≠ n → exec (.bq q n o) s = .next (traps s c g .accessViolation 0 0))) ∧
    (∀ q n, g.ctx.qget (BitVec.toNat q) = n → exec (.bq q n o) s = .next (goesOn s g g))) ∧
  (∀ (s : State) c g a r (i : Instr), Scalar s c g [a.toNat] [r] → (i = .jr a ∧ r = a.toNat ∨ i = .ret ∧ r = 1) →
    ((g.u r).toNat % 4 = 0 → InSection s g (g.u r).toNat → exec i s = .next (jumps s g g (g.u r))) ∧
    ((g.u r).toNat % 4 = 0 → ¬ InSection s g (g.u r).toNat → exec i s = .next (traps s c g .accessViolation 0 0)) ∧
    ((g.u r).toNat % 4 ≠ 0 → exec i s = .next (traps s c g .misaligned 0 0))) ∧
  (∀ (s : State) c g d (o : BitVec 11), Scalar s c g [d.toNat] → let t : Int := g.ctx.pc.toNat + 4 * o.toInt
    (g.u d.toNat = 1 → exec (.loop d o) s = .next (goesOn s g (g.setU d.toNat 0))) ∧
    (g.u d.toNat ≠ 1 → InSection s g t →
      exec (.loop d o) s = .next (jumps s g (g.setU d.toNat (g.u d.toNat - 1)) (word t.toNat))) ∧
    (g.u d.toNat ≠ 1 → ¬ InSection s g t → exec (.loop d o) s = .next (traps s c g .accessViolation 0 0))) ∧
  (∀ (s : State) c g, Scalar s c g [] →
    exec .nop s = .next (goesOn s g g) ∧ exec .yield s = .next (goesOn s g { g with yielded := true }))

/-- The dispatch of lane blocks (R18, R161): a start index inside the lane section enters the queue with its mask, a full queue
of 8 makes the stream wait, an index of the section's length or more takes ACCESS_VIOLATION, one of 2^16 or more RESERVED_FIELD.
Waits of the scalar stream (R60, R156, R162, R163, R255): `lsync` for the lane stream; `fwait` until its flags are zero, which in
kernel mode observes the feeds of those flags that it stands behind (the order of feeds is the model's reading, log 137), and `waitp` until its counter is at most gA, each then delivering the earliest deferred fault of
the group where one of its mode waits for one of its flags or on its path (that `waitp` does so where its bound held from the first is the model's choice,
log 114); `waitz` until a landing counter is zero or marked. A wait leaves the PC; the stream goes on at once where nothing is left to
wait for: `lrun`, `lrunx`, `lsync`, `fwait`, `waitp` and `waitz` each complete on the states and operands that their clauses name. -/
def Obligations.LaneBlocksAndWaits : Prop :=
  (∀ (s : State) c g (n : BitVec 16), Scalar s c g [] →
    (n.toNat < s.laneCount g → g.ctx.queue.length < 8 →
      exec (.lrun n) s =
        .next (goesOn s g (g.setCtx { g.ctx with queue := g.ctx.queue ++ [(n.toNat, BitVec.allOnes 32)] }))) ∧
    (n.toNat < s.laneCount g → 8 ≤ g.ctx.queue.length → exec (.lrun n) s = .next (waits s g 11)) ∧
    (s.laneCount g ≤ n.toNat → exec (.lrun n) s = .next (traps s c g .accessViolation 0 0))) ∧
  (∀ (s : State) c g a b, Scalar s c g [a.toNat, b.toNat] →
    ((g.u a.toNat).toNat < 2 ^ 16 → (g.u a.toNat).toNat < s.laneCount g → g.ctx.queue.length < 8 →
      exec (.lrunx a b) s =
        .next (goesOn s g (g.setCtx { g.ctx with queue := g.ctx.queue ++ [((g.u a.toNat).toNat, g.u b.toNat)] }))) ∧
    ((g.u a.toNat).toNat < 2 ^ 16 → (g.u a.toNat).toNat < s.laneCount g → 8 ≤ g.ctx.queue.length →
      exec (.lrunx a b) s = .next (waits s g 11)) ∧
    ((g.u a.toNat).toNat < 2 ^ 16 → s.laneCount g ≤ (g.u a.toNat).toNat →
      exec (.lrunx a b) s = .next (traps s c g .accessViolation 0 0)) ∧
    (2 ^ 16 ≤ (g.u a.toNat).toNat → exec (.lrunx a b) s = .next (traps s c g .reservedField 0 0))) ∧
  (∀ (s : State) c g, Scalar s c g [] →
    (g.ctx.queue = [] ∧ g.ctx.busy = false → exec .lsync s = .next (goesOn s g (behindLanes g))) ∧
    (¬ (g.ctx.queue = [] ∧ g.ctx.busy = false) → exec .lsync s = .next (waits s g 9))) ∧
  (∀ (s : State) c g (m : BitVec 12), Scalar s c g [] →
    ((∃ f, f < 12 ∧ m.getLsbD f = true ∧ g.ctx.flag f ≠ 0) → exec (.fwait m) s = .next (waits s g 7)) ∧
    ((∀ f, f < 12 → m.getLsbD f = true → g.ctx.flag f = 0) →
      ((∀ d ∈ g.deferred, d.level = g.mode.level → ∀ f, f < 12 → m.getLsbD f = true → d.flag ≠ some f) →
        exec (.fwait m) s = .next (goesOn s g (observedBy g m))) ∧
      (∀ f d, f < 12 → m.getLsbD f = true → d ∈ g.deferred → d.level = g.mode.level → d.flag = some f →
        ∃ e, Earliest g e ∧ exec (.fwait m) s = .next (delivers s g e)))) ∧
  (∀ (s : State) c g a (p : BitVec 4), Scalar s c g [a.toNat] →
    ((g.u a.toNat).toNat < 255 → (g.u a.toNat).toNat < g.ctx.counter p.toNat → exec (.waitp a p) s = .next (waits s g 8)) ∧
    (255 ≤ (g.u a.toNat).toNat → exec (.waitp a p) s = .next (goesOn s g g)) ∧
    (g.ctx.counter p.toNat ≤ (g.u a.toNat).toNat →
      (∀ d ∈ g.deferred, d.level = g.mode.level → p.toNat ∉ d.paths) → exec (.waitp a p) s = .next (goesOn s g g)) ∧
    ((g.u a.toNat).toNat < 255 → g.ctx.counter p.toNat ≤ (g.u a.toNat).toNat →
      ∀ d ∈ g.deferred, d.level = g.mode.level → p.toNat ∈ d.paths →
        ∃ e, Earliest g e ∧ exec (.waitp a p) s = .next (delivers s g e))) ∧
  (∀ (s : State) c g a, Scalar s c g [a.toNat] →
    ((g.u a.toNat).getLsbD 31 = true ∨ (g.u a.toNat).toNat % 2 ^ 31 = 0 → exec (.waitz a) s = .next (goesOn s g g)) ∧
    ((g.u a.toNat).getLsbD 31 = false → (g.u a.toNat).toNat % 2 ^ 31 ≠ 0 → exec (.waitz a) s = .next (waits s g 6)))

/-! ### Ordering -/

/-- Fences (R69, R156, R166, R249): each goes on once what it waits for has happened, changing nothing but that the stream stands behind
what the lanes do (R67), and waits otherwise: the lane
stream and the accesses of its mode and those before it for `fence.acq`, with its transfers and forwarded records for `fence.rel` and
`fence.ar`, the stores, atomics, `mtst` and `vrowpk` of the group for `opfence`, its matrix operations of either mode for `mwait`. Where
that has happened and a deferred fault of the group waits, each delivers the earliest, that of either mode (log 124). That nothing is left to invalidate is the model's
one coherent store (log 10). -/
def Obligations.Fences : Prop :=
  ∀ (s : State) c g, Scalar s c g [] →
    let acq := g.ctx.laneIdle = true ∧ g.pathsZeroAll = true
    let rel := g.ctx.laneIdle = true ∧ s.relDone g = true
    let ops := g.ctx.laneIdle = true ∧ ∀ o ∈ g.ops, o.work.isStore = false
    let mat := ∀ o ∈ g.ops, o.work.isMatrix = false
    (∀ e ∈ ([(.fenceAcq, acq), (.fenceRel, rel), (.fenceAr, rel), (.opfence, ops), (.mwait, mat)] : List (Instr × Prop)), e.2 →
      (NoFault g → exec e.1 s = .next (goesOn s g (if e.1 = .mwait then g else behindLanes g))) ∧
      (¬ NoFault g → ∃ d, Earliest g d ∧ exec e.1 s = .next (delivers s g d))) ∧
    (g.ctx.laneIdle = false → ∀ i ∈ [Instr.fenceAcq, .fenceRel, .fenceAr, .opfence], exec i s = .next (waits s g 9)) ∧
    (g.ctx.laneIdle = true → g.pathsZeroAll = false →
      ∀ i ∈ [Instr.fenceAcq, .fenceRel, .fenceAr], exec i s = .next (waits s g 8)) ∧
    (g.ctx.laneIdle = true → s.relDone g = false → ∀ i ∈ [Instr.fenceRel, .fenceAr], exec i s = .next (waits s g 8)) ∧
    (g.ctx.laneIdle = true → (∃ o ∈ g.ops, o.work.isStore = true) → exec .opfence s = .next (waits s g 8)) ∧
    ((∃ o ∈ g.ops, o.work.isMatrix = true) → exec .mwait s = .next (waits s g 10)) ∧
    (g.pathsZeroAll = true ↔ (∀ n ∈ g.ctx.paths, n = 0) ∧
      ∀ o ∈ g.ops, o.paths ≠ [] → o.orphan = false ∧ (g.inHandler = true → o.level ≠ 0)) ∧
    (s.relDone g = true ↔ g.pathsZeroAll = true ∧ (∀ o ∈ g.ops, o.work.isTransfer = false) ∧ ∀ f ∈ s.forwards, f.group ≠ g.uid)

/-- A group that may issue a form on barrier `n` of its block (R38, R164, R306): it is in kernel mode, the number exists, and it is not
the holder of the token of a strict grid. -/
structure Sys2Proof.Claims.AtBarrier (s : State) (g : Group) (n : Nat) : Prop where
  kernel : g.mode = .kernel
  number : n < (s.blockOf g).nBar
  token  : (s.gridOf g).strict = true → s.holdsToken g = false

/-- Barriers (R38, R67, R71, R164, R165): the last arrival of a generation completes it, and a `bar` then goes on; any other `bar` arrives
and waits, and goes on once the generation of its arrival is over, as `fence.acq`; `bara` arrives and goes on. A group whose last arrival
at the barrier has not completed does not arrive: `bar` and `bara` wait for that first, so that a group never counts twice in one
generation. `barw` waits for the lane stream; it goes on, as `fence.acq`, once the generation of the group's last arrival is over, and
waits until then; where the group has never arrived it waits for the generation that was current when it began to, once the lane stream was idle (the
model's choice, log 145). A barrier that the
block has not takes RESERVED_FIELD, and the holder of the token of a strict grid takes TOKEN_ORDER, but not a form that has waited and
whose generation is over: it was issued before the token came. -/
def Obligations.Barriers : Prop :=
  (∀ (s : State) c g d (n : BitVec 4) (b : Block) (x : Barrier), Scalar s c g [d.toNat] → AtBarrier s g n.toNat → Released s g →
    s.block? g.block = some b → b.bars[n.toNat]? = some x → n.toNat < g.barLast.length → g.barHere ≠ some n.toNat →
    (∀ gen, g.barLast[n.toNat]? = some (some gen) → gen ≠ x.gen) →
    let exp := if x.arr = 0 then (if g.u d.toNat = 0 then (s.gridOf g).groups else (g.u d.toNat).toNat) else x.exp
    let s1 := s.arrive g n.toNat (g.u d.toNat)
    let g1 : Group := { g with barLast := setNth g.barLast n.toNat (some x.gen), barWaited := n.toNat, barW := none }
    (x.arr + 1 = exp →
      exec (.bar d n) s = .next (goesOn s1 g (behindLanes { g1 with barAt := none })) ∧
      ((s1.block? g.block).map fun y => y.bar n.toNat) = some { gen := x.gen + 1 }) ∧
    (x.arr + 1 ≠ exp →
      exec (.bar d n) s = .next (waits s1 { g1 with barAt := some n.toNat, barPc := g.k.pc } 3) ∧
      ((s1.block? g.block).map fun y => y.bar n.toNat) =
        some { x with arr := x.arr + 1, exp := exp, first := some (x.first.getD s.clk) })) ∧
  (∀ (s : State) c g d (n : BitVec 4), Scalar s c g [d.toNat] → g.mode = .kernel → n.toNat < (s.blockOf g).nBar →
    g.barHere = some n.toNat →
    (s.arrivalDone g n.toNat = true → g.ctx.laneIdle = false → exec (.bar d n) s = .next (waits s g 9)) ∧
    (s.arrivalDone g n.toNat = true → g.ctx.laneIdle = true → g.pathsZeroAll = true → NoFault g →
      exec (.bar d n) s = .next (goesOn s g (behindLanes { g with barAt := none }))) ∧
    (s.arrivalDone g n.toNat = true → g.ctx.laneIdle = true → g.pathsZeroAll = false → exec (.bar d n) s = .next (waits s g 8)) ∧
    (s.arrivalDone g n.toNat = false → AtBarrier s g n.toNat → exec (.bar d n) s = .next (waits s g 3))) ∧
  (∀ (s : State) c g d (n : BitVec 4), Scalar s c g [d.toNat] → AtBarrier s g n.toNat →
    (s.arrivalDone g n.toNat = true → Released s g →
      exec (.bara d n) s = .next (goesOn (s.arrive g n.toNat (g.u d.toNat)) g { g with
        barLast := setNth g.barLast n.toNat (some ((s.blockOf g).bar n.toNat).gen), barW := none })) ∧
    (s.arrivalDone g n.toNat = false → ∀ i ∈ [Instr.bar d n, .bara d n], (i = .bar d n → g.barHere ≠ some n.toNat) → ∃ w,
      exec i s = .next (waits s { g with barW := w, barWaited := n.toNat } 3))) ∧
  (∀ (s : State) c g (n : BitVec 4) gen, Scalar s c g [] → g.mode = .kernel → n.toNat < (s.blockOf g).nBar →
    AtBarrier s g n.toNat ∨ (g.barWaited = n.toNat ∧ g.barW = some gen ∧ gen ≠ ((s.blockOf g).bar n.toNat).gen) →
    (g.barLast[n.toNat]? = some (some gen) ∨
      g.barLast[n.toNat]? = some none ∧ g.barWaited = n.toNat ∧ g.barW = some gen ∨
      g.barLast[n.toNat]? = some none ∧ (g.barWaited ≠ n.toNat ∨ g.barW = none) ∧ gen = ((s.blockOf g).bar n.toNat).gen) →
    (g.ctx.laneIdle = false → exec (.barw n) s = .next (waits s g 9)) ∧
    (g.ctx.laneIdle = true → gen ≠ ((s.blockOf g).bar n.toNat).gen →
      (g.pathsZeroAll = true → NoFault g → exec (.barw n) s = .next (goesOn s g (behindLanes { g with barW := none }))) ∧
      (g.pathsZeroAll = false → exec (.barw n) s = .next (waits s g 8))) ∧
    (g.ctx.laneIdle = true → gen = ((s.blockOf g).bar n.toNat).gen → ∃ t : State,
      exec (.barw n) s = .next (waits t { g with barW := some gen, barWaited := n.toNat } 3) ∧ SameMemory s t ∧
      ∀ b, (t.block? g.block).map (fun y => { y with bars := [] }) = (s.block? g.block).map (fun y => { y with bars := [] }) ∧
        ((t.blockOf g).bar b).gen = ((s.blockOf g).bar b).gen ∧ ((t.blockOf g).bar b).arr = ((s.blockOf g).bar b).arr)) ∧
  (∀ (s : State) g n, s.arrivalDone g n = false ↔ g.barLast[n]? = some (some ((s.blockOf g).bar n).gen)) ∧
  (∀ (s : State) c g d (n : BitVec 4), Scalar s c g [d.toNat] → (s.blockOf g).nBar ≤ n.toNat →
    ∀ i ∈ [Instr.bar d n, .bara d n, .barw n], exec i s = .next (traps s c g .reservedField 0 0)) ∧
  (∀ (s : State) c g d (n : BitVec 4), Scalar s c g [d.toNat] → g.mode = .kernel → n.toNat < (s.blockOf g).nBar →
    (s.gridOf g).strict = true → s.holdsToken g = true →
      ∀ i ∈ [Instr.bar d n, .bara d n, .barw n],
        (i = .bar d n → g.barHere ≠ some n.toNat ∨ s.arrivalDone g n.toNat = false) →
        (i = .barw n → g.barWaited ≠ n.toNat ∨ g.barW = none ∨ g.barW = some ((s.blockOf g).bar n.toNat).gen) →
        exec i s = .next (traps s c g .tokenOrder 0 0))

/-- The commit token, switch points and `exit` (R34, R38, R88, R159, R167, R168, R235). `cpass` does nothing outside strict operation,
waits for the token, and passes it once the group has released; `swpt` with a number that its address has not takes RESERVED_FIELD, does
nothing without a request, waits under one until R34's conditions hold, and then stands at its point, where its block may convert;
`exit` waits for what the group has in flight and retires it, passes the token if it holds it, and may end its block. -/
def Obligations.TokenSwitchAndExit : Prop :=
  (∀ (s : State) c g, Scalar s c g [] → g.mode = .kernel →
    ((s.gridOf g).strict = false → exec .cpass s = .next (goesOn s g g)) ∧
    ((s.gridOf g).strict = true → s.holdsToken g = false → exec .cpass s = .next (waits s g 4)) ∧
    ((s.gridOf g).strict = true → s.holdsToken g = true → Released s g →
      exec .cpass s = .next (goesOn (s.passToken (s.gridOf g) (s.logicalId g)) g g))) ∧
  (∀ (s : State) c g (n : BitVec 16), Scalar s c g [] → g.mode = .kernel →
    (n = 0 ∨ 15 < n.toNat → exec (.swpt n) s = .next (traps s c g .reservedField 0 0)) ∧
    (n ≠ 0 → n.toNat ≤ 15 → ((s.variantOf g).switches.any fun e => e.n == n.toNat && e.off == g.k.pc.toNat) = false →
      exec (.swpt n) s = .next (traps s c g .reservedField 0 0)) ∧
    (n ≠ 0 → n.toNat ≤ 15 → ((s.variantOf g).switches.any fun e => e.n == n.toNat && e.off == g.k.pc.toNat) = true →
      ((s.blockOf g).req = none → exec (.swpt n) s = .next (goesOn s g { g with swAt := none })) ∧
      ((s.blockOf g).req ≠ none → s.switchReady g = false →
        exec (.swpt n) s = .next (waits s { g with swDrain := true } 3)) ∧
      ((s.blockOf g).req ≠ none → s.switchReady g = true → NoFault g →
        exec (.swpt n) s =
          .next ((s.setGroup { g with swAt := some n.toNat, swDrain := false, whyS := some 3 }).tryConvert g.block)))) ∧
  (∀ (s : State) (g : Group), s.switchReady g = true ↔ g.ctx.laneIdle = true ∧ (∀ n ∈ g.ctx.flags, n = 0) ∧ s.relDone g = true ∧
    (∀ o ∈ g.ops, o.work.isMatrix = false) ∧ s.partnerBusy g = false ∧ ∀ x ∈ s.copies, x.owner ≠ g.uid) ∧
  (∀ (s : State) c g, Scalar s c g [] → g.mode = .kernel →
    (∀ why, s.exitWait g = some why → exec .exit s = .next (waits s g why)) ∧
    (s.exitWait g = none → NoFault g →
      let s1 := s.issued { g with
        exited := true, segA := none, segB := none, segM := none, feeds := [], whyS := none, swAt := none } 3 g.k.pc.toNat
      let s2 := if (s.gridOf g).strict && s.holdsToken g then s1.passToken (s.gridOf g) (s.logicalId g) else s1
      exec .exit s = .next ((s2.tryConvert g.block).finishBlock g.block))) ∧
  (∀ (s : State) (g : Group), s.exitWait g = none ↔ g.ctx.laneIdle = true ∧ (∀ n ∈ g.ctx.flags, n = 0) ∧ g.pathsZeroAll = true ∧
    (∀ o ∈ g.ops, o.work.isMatrix = false) ∧ s.partnerBusy g = false ∧ (s.holdsToken g = true → s.relDone g = true))

/-! ### Copies, children, semaphores -/

/-- `ckick`, `ccancel`, `launch` and `join` (R169, R170, R172, R173): a kick of 0 slots does nothing, one of more than 64 takes
RESERVED_FIELD; the requests enter their core's engine in order; a cancel ends each request of the group with its tag that has not
started, with status 0xFE and bit 31 of its landing target set (of a register in the window, or of an object whose reserved bits are 0: one
where they are not keeps its bytes, R61), and marks a started one, which is cut; requests of other groups and tags stay, and a tag that no request has changes nothing; a launch at depth 10 takes LAUNCH_DEPTH, and an accepted child enters the
dispatcher; `join` waits for the children of the group to complete and writes the count of those that were rejected or did not end with
status 0. Cross-stack semaphores and byte-count barrier objects (R71, R163, R174): `xsig` adds 1, staying at all ones; `xwait` waits where
the value is 0 and otherwise takes 1, as `fence.acq`; `waitm` goes on where the count is zero, bit 31 is set or the generation differs,
waits otherwise, delivers the fault of a read that its home refuses or that the mesh has failed to carry (R410), and takes REMOTE_TIMEOUT
where the other stack has not answered in time. Choices of the model: failures of the mesh are inputs (log 118), a read waits while a link retrains (log 62), an answer may be lost (log 108), the status byte of a
slot (log 64), the landing in the register of the context (log 42). -/
def Obligations.CopiesChildrenSemaphores : Prop :=
  (∀ (s : State) c g a b, Scalar s c g [a.toNat, a.toNat + 1, b.toNat] →
    (g.u b.toNat = 0 → exec (.ckick a b) s = .next (goesOn s g g)) ∧
    (64 < (g.u b.toNat).toNat → exec (.ckick a b) s = .next (traps s c g .reservedField 0 0)) ∧
    (g.u b.toNat ≠ 0 → (g.u b.toNat).toNat ≤ 64 → ∀ off,
      s.ownRange g (g.u64 a.toNat).toNat 32 (32 * (g.u b.toNat).toNat) = .inr off → g.localBusy = false →
      s.engineSlots g.die g.core + (g.u b.toNat).toNat ≤ Config.engineSlots →
      s.ownBad g off (32 * (g.u b.toNat).toNat) = false →
      exec (.ckick a b) s = .next (goesOn (s.submit g (splitSlots
        ((List.range (g.u b.toNat).toNat).map fun i => s.ownBytes g (off + 32 * i) 32) none off)) g g))) ∧
  (∀ (s : State) c g a, Scalar s c g [a.toNat] →
    (2 ^ 16 ≤ (g.u a.toNat).toNat → exec (.ccancel a) s = .next (traps s c g .reservedField 0 0)) ∧
    ((g.u a.toNat).toNat < 2 ^ 16 → (s.copies.map (·.id)).Nodup → ∃ t g', exec (.ccancel a) s = .next (goesOn t g g') ∧
      (let hit := fun (x : Copy) => x.owner = g.uid ∧ x.tag = (g.u a.toNat).toNat
       t.copies = s.copies.filterMap (fun x =>
         if hit x then (if x.st = .queued then none else some { x with cancelled := true }) else some x) ∧
       ((∀ x ∈ s.copies, ¬ hit x) → t = s ∧ g' = g) ∧
       (∀ x ∈ s.copies, hit x → x.st = .queued → (∀ y ∈ s.copies, hit y → y = x) →
         t = s.endCopy x 0xFE true ∧ some g' = t.group? g.uid)))) ∧
  (∀ (s : State) (x : Copy) g, s.group? x.owner = some g → g.exited = false → let t := s.endCopy x 0xFE true
    (x ∉ t.copies ∧
     (x.land = 0 → x.slotVa + 32 ≤ (s.ownShare g).2 → Mem.byte t.core (s.ownKey g (x.slotVa + 27)) = 0xFE) ∧
     (x.land = 1 → s.copyRefused x = none → x.target % 512 ≠ 0 →
       ∃ g', t.group? x.owner = some g' ∧ (Cells.get 0 g'.ureg (x.target % 512)).getLsbD 31 = true) ∧
     (x.land = 2 → 16 * (x.target % 2 ^ 17) + 16 ≤ (s.ownShare g).2 → x.slotVa % 32 = 0 →
       (s.objectBad x = false → (Mem.byte t.core (s.ownKey g (16 * (x.target % 2 ^ 17) + 3))).getLsbD 7 = true) ∧
       (s.objectBad x = true → ∀ k, k < 16 → x.slotVa + 27 ≠ 16 * (x.target % 2 ^ 17) + k →
         Mem.byte t.core (s.ownKey g (16 * (x.target % 2 ^ 17) + k)) = Mem.byte s.core (s.ownKey g (16 * (x.target % 2 ^ 17) + k)))))) ∧
  (∀ (s : State) c g a, Scalar s c g [a.toNat, a.toNat + 1] → g.mode = .kernel → Released s g → ∀ off,
    s.ownRange g (g.u64 a.toNat).toNat 64 64 = .inr off →
    (10 ≤ (s.gridOf g).depth → exec (.launch a) s = .next (traps s c g .launchDepth 0 0)) ∧
    ((s.gridOf g).depth < 10 → s.poolFull g.die (s.partOf g) = false → s.ownBad g off 64 = false → ∀ k,
      s.checkDispatch (s.childOrigin g) (s.ownBytes g off 64) = .ok k →
      exec (.launch a) s = .next (goesOn (s.enter { k with wave := none }) g g))) ∧
  (∀ (s : State) c g a, Scalar s c g [a.toNat] [] → g.mode = .kernel →
    ((∃ k ∈ s.grids, k.parent = some g.uid ∧ k.joined = false ∧ k.st ≠ .complete) →
      exec (.join a) s = .next (waits s { g with inJoin := true } 5)) ∧
    ((∀ k ∈ s.grids, k.parent = some g.uid → k.joined = false → k.st = .complete) →
      exec (.join a) s = .next (goesOn { s with
        grids := s.grids.map fun k => if k.parent = some g.uid then { k with joined := true } else k }
        g (Group.setU { g with lost := 0, inJoin := false } a.toNat
          (word (g.lost + (s.grids.filter fun k => k.parent == some g.uid && !k.joined && k.status != 0).length)))))) ∧
  (∀ (s : State) c g (n : BitVec 6), Scalar s c g [] → Released s g →
    exec (.xsig n) s = .next (goesOn
      (if s.reg 0 (pkSem (s.partOf g) n.toNat) = BitVec.allOnes 32 then s
       else s.setReg 0 (pkSem (s.partOf g) n.toNat) (s.reg 0 (pkSem (s.partOf g) n.toNat) + 1)) g g)) ∧
  (∀ (s : State) c g (n : BitVec 6), Scalar s c g [] → g.mode = .kernel →
    (s.reg 0 (pkSem (s.partOf g) n.toNat) = 0 → exec (.xwait n) s = .next (waits s g 5)) ∧
    (s.reg 0 (pkSem (s.partOf g) n.toNat) ≠ 0 → g.ctx.laneIdle = false → exec (.xwait n) s = .next (waits s g 9)) ∧
    (s.reg 0 (pkSem (s.partOf g) n.toNat) ≠ 0 → g.ctx.laneIdle = true → g.pathsZeroAll = false →
      exec (.xwait n) s = .next (waits s g 8)) ∧
    (s.reg 0 (pkSem (s.partOf g) n.toNat) ≠ 0 → g.ctx.laneIdle = true → g.pathsZeroAll = true →
      exec (.xwait n) s = .next (goesOn (s.setReg 0 (pkSem (s.partOf g) n.toNat)
        (s.reg 0 (pkSem (s.partOf g) n.toNat) - 1)) g g))) ∧
  (∀ (s : State) c g a b acc sd, Scalar s c g [a.toNat, b.toNat] → NoWatch s →
    s.check g .read 16 (g.u64 a.toNat).toNat 16 = .ok acc sd →
    (∀ o ∈ g.ops, acc.path ∉ o.paths ∧ ∀ h ∈ o.work.accs, h.held = false) →
    let s' := s.useAcc g acc
    let r := s'.performAt g (.load 16 false) acc
    let v := leNat r.got
    let away := g.waitMesh && acc.onMesh
    (away = true → ∃ d : Deferred, exec (.waitm a b) s = .next (delivers s' g d) ∧ d.trap.code = .uncorrectable ∧
      d.trap.pc = g.ctx.pc ∧ d.trap.address = acc.va) ∧
    (away = false → acc.peer = false → r.fault = none →
      (v % 2 ^ 31 = 0 ∨ v / 2 ^ 31 % 2 = 1 ∨ v / 2 ^ 64 % 2 ^ 32 ≠ (g.u b.toNat).toNat →
        exec (.waitm a b) s = .next (goesOn s' g { g with waitPeer := none, pageWait := none })) ∧
      (v % 2 ^ 31 ≠ 0 → v / 2 ^ 31 % 2 = 0 → v / 2 ^ 64 % 2 ^ 32 = (g.u b.toNat).toNat →
        exec (.waitm a b) s = .next (waits s' { g with waitPeer := none } 6))) ∧
    (∀ code, away = false → acc.peer = false → r.fault = some code → ∃ d : Deferred, exec (.waitm a b) s = .next (delivers s' g d) ∧
      d.trap.code = code ∧ d.trap.pc = g.ctx.pc ∧ d.trap.address = acc.va) ∧
    (away = false → acc.peer = true → g.waitPeer = some acc.va → s.linkUp = false ∨ g.waitLost = true →
      (s.expired g.die (some g.waitSince) = false → exec (.waitm a b) s = .next (waits s' g 6)) ∧
      (s.expired g.die (some g.waitSince) = true → exec (.waitm a b) s = .next (delivers
        (s'.record g.die (s.partOf g) 0x26
          { group := some g.uid, core := g.core, index := g.index, pc := g.ctx.pc, va := acc.va } 0) g
        { op := g.nextOp
          trap := { code := .remoteTimeout, delivery := .deferred, pc := g.ctx.pc, info := word (1 - g.die), address := acc.va
                    word := word c.word } }))))

/-! ### Matrix instructions and draws -/

/-- The issue of the matrix instructions (R243, R244, R251, R252, R256): `mzero` with tiles in the window; `mtld` and `mtst` whose
range passes its checks; `mqt` and `mma` whose fields do; and the traps of a descriptor word of tiles. That REGISTER_RANGE reports the first
tile outside is the model's choice (log 36), and so are the places in `mmaFault` and `mqtFault` of the faults that the spec leaves without one
(logs 116, 117). -/
def Obligations.MatrixIssue : Prop :=
  (∀ (s : State) c g a f first n, Scalar s c g [a.toNat] → Tiles g (g.u a.toNat).toNat first n →
    g.ctx.canRaise (flagOf f) [] = true →
    exec (.mzero a f) s = .next (tileIssued { s with fresh := s.fresh + 1 } c g g f (.mzero first n) none s.fresh)) ∧
  (∀ (s : State) c g a f, Scalar s c g [a.toNat] →
    ((g.u a.toNat).toNat / 2 ^ 20 ≠ 0 → exec (.mzero a f) s = .next (traps s c g .reservedField 0 0)) ∧
    (let w := (g.u a.toNat).toNat
     w / 2 ^ 20 = 0 → g.window < w % 2 ^ 10 + (w / 2 ^ 10 + 1) →
      exec (.mzero a f) s = .next (traps s c g .registerRange (word (max (w % 2 ^ 10) g.window)) 0))) ∧
  (∀ (s : State) c g a b f first n acc sd, Scalar s c g [a.toNat, a.toNat + 1, b.toNat] →
    Tiles g (g.u b.toNat).toNat first n → (g.u64 a.toNat).toNat < 2 ^ 48 → g.ctx.canRaise (flagOf f) [] = true →
    (s.checkRange g .read (g.u64 a.toNat).toNat (1024 * n) = .ok acc sd →
      exec (.mtld a b f) s = .next (tileIssued { s.useAcc g acc with fresh := s.fresh + 1 } c g g f
        (.mtld first n { acc with held := false }) none s.fresh)) ∧
    (s.checkRange g .write (g.u64 a.toNat).toNat (1024 * n) = .ok acc sd → (s.gridOf g).strict = false ∨ sd = false →
      exec (.mtst a b f) s = .next (tileIssued { s.useAcc g acc with fresh := s.fresh + 1 } c g g f
        (.mtst first n { acc with held := false }) none s.fresh)) ∧
    (s.checkRange g .write (g.u64 a.toNat).toNat (1024 * n) = .ok acc sd → (s.gridOf g).strict = true → sd = true →
      s.holdsToken g = true ∨ g.heldCount < 4 →
      exec (.mtst a b f) s = .next (tileIssued { s.useAcc g acc with fresh := s.fresh + 1 } c g g f
        (.mtst first n { acc with held := !s.holdsToken g }) none s.fresh)) ∧
    (s.checkRange g .write (g.u64 a.toNat).toNat (1024 * n) = .ok acc sd → (s.gridOf g).strict = true → sd = true →
      s.holdsToken g = false → 4 ≤ g.heldCount → exec (.mtst a b f) s = .next (waits s g 12))) ∧
  (∀ (s : State) c g a f, Scalar s c g (upFrom a.toNat 4) → g.ctx.canRaise (flagOf f) [] = true →
    s.mqtFault g (g.u a.toNat).toNat (g.u (a.toNat + 1)).toNat (g.u (a.toNat + 2)).toNat (g.u (a.toNat + 3)).toNat = none →
    exec (.mqt a f) s = .next (tileIssued { s with fresh := s.fresh + 1 } c g g f
      (.mqt (g.u a.toNat) (g.u (a.toNat + 1)) (g.u (a.toNat + 2)) (g.u (a.toNat + 3))) none s.fresh)) ∧
  (∀ (s : State) c g (x y : Reg) f (d : MmaDesc),
    Scalar s c g [x.toNat, x.toNat + 1, y.toNat, y.toNat + 1, y.toNat + 2, y.toNat + 3] →
    g.ctx.canRaise (flagOf f) [] = true →
    d = { w0 := g.u y.toNat, w1 := g.u (y.toNat + 1), w2 := g.u (y.toNat + 2), w3 := g.u (y.toNat + 3), s0 := g.u x.toNat
          s1 := g.u (x.toNat + 1) } →
    s.mmaFault g d = none → d.wide = false → d.consume false = false → d.consume true = false →
    exec (.mma x y f) s = .next (tileIssued { s with fresh := s.fresh + 1 } c g g f
      (.mma { d with
        posA := (g.segA.map (·.head)).getD 0, posB := (g.segB.map (·.head)).getD 0, posM := (g.segM.map (·.head)).getD 0
        posP := 0, pair := none }) none s.fresh)) ∧
  (∀ (s : State) c g (x y : Reg) f (d : MmaDesc) code info,
    Scalar s c g [x.toNat, x.toNat + 1, y.toNat, y.toNat + 1, y.toNat + 2, y.toNat + 3] →
    d = { w0 := g.u y.toNat, w1 := g.u (y.toNat + 1), w2 := g.u (y.toNat + 2), w3 := g.u (y.toNat + 3), s0 := g.u x.toNat
          s1 := g.u (x.toNat + 1) } →
    s.mmaFault g d = some (code, info) → exec (.mma x y f) s = .next (traps s c g code info 0)) ∧
  (∀ (s : State) c g (x y : Reg) f (d : MmaDesc),
    Scalar s c g [x.toNat, x.toNat + 1, y.toNat, y.toNat + 1, y.toNat + 2, y.toNat + 3] →
    g.ctx.canRaise (flagOf f) [] = true →
    d = { w0 := g.u y.toNat, w1 := g.u (y.toNat + 1), w2 := g.u (y.toNat + 2), w3 := g.u (y.toNat + 3), s0 := g.u x.toNat
          s1 := g.u (x.toNat + 1) } →
    s.mmaFault g d = none → ∃ (t : State) (g' : Group) (o : Op), exec (.mma x y f) s = .next (goesOn t g (g'.push o)) ∧ o.flag = flagOf f ∧
      (∃ d' : MmaDesc, o.work = .mma d' ∧ d'.posA = (g.segA.map (·.head)).getD 0 ∧ d'.pair.isSome = d.wide) ∧
      (g'.segA.map (·.head)) =
        (if d.consume false then g.segA.map fun z => (z.head + d.taken false) % z.len else g.segA.map (·.head)) ∧
      (g'.segB.map (·.head)) =
        (if d.consume true then g.segB.map fun z => (z.head + d.taken true) % z.len else g.segB.map (·.head)))

/-- Segments (R235, R238, R249): a claim of 1 to all positions of its stream gives a segment with its head at 0 and writes 0, or
none and all ones; a release ends it; the head is read, all ones where there is none, and set modulo the length. That a length out of
range and a `sethead` without a segment fault before the wait as `mwait` is the model's choice (log 115). -/
def Obligations.Segments : Prop :=
  (∀ (s : State) c g a b (k : BitVec 2), Scalar s c g [a.toNat, b.toNat] [b.toNat] → g.mode = .kernel → k.toNat < 3 →
    (g.u b.toNat = 0 ∨ Config.streamPositions k.toNat < (g.u b.toNat).toNat →
      exec (.mfifoClaim a b k) s = .next (traps s c g .reservedField 0 0)) ∧
    (g.u b.toNat ≠ 0 → (g.u b.toNat).toNat ≤ Config.streamPositions k.toNat → g.matrixDone = true → NoFault g →
      (∀ base, s.segmentFit g k.toNat (g.u b.toNat).toNat = some base → ∃ t : State, t.groups = s.groups ∧ SameMemory s t ∧
        exec (.mfifoClaim a b k) s = .next (goesOn t g ((g.setSeg k.toNat
          (some { base := base, len := (g.u b.toNat).toNat, head := 0, bytes := [] })).setU a.toNat 0))) ∧
      (s.segmentFit g k.toNat (g.u b.toNat).toNat = none →
        exec (.mfifoClaim a b k) s = .next (goesOn s g ((g.setSeg k.toNat none).setU a.toNat 0xFFFFFFFF))))) ∧
  (∀ (s : State) c g (k : BitVec 2), Scalar s c g [] → g.mode = .kernel → g.matrixDone = true → NoFault g →
    exec (.mfifoRelease k) s = .next (goesOn s g (g.setSeg k.toNat none))) ∧
  (∀ (s : State) c g a (k : BitVec 2), Scalar s c g [a.toNat] [] →
    (∀ x, g.seg k.toNat = some x → exec (.mfifoHead a k) s = .next (goesOn s g (g.setU a.toNat (word x.head)))) ∧
    (g.seg k.toNat = none → exec (.mfifoHead a k) s = .next (goesOn s g (g.setU a.toNat 0xFFFFFFFF)))) ∧
  (∀ (s : State) c g a (k : BitVec 2), Scalar s c g [a.toNat] → g.mode = .kernel →
    (g.seg k.toNat = none → exec (.mfifoSethead a k) s = .next (traps s c g .matrixCombination 0 0)) ∧
    (∀ x, g.seg k.toNat = some x → g.matrixDone = true → NoFault g →
      exec (.mfifoSethead a k) s =
        .next (goesOn s g (g.setSeg k.toNat (some { x with head := (g.u a.toNat).toNat % x.len })))))

/-- Draw keys, draw commands and bands (R265, R266, R268, R274, R275, R292): a key is set from three registers; a command whose
descriptor lies in the own share and passes its checks is issued with the descriptor and the key of that moment; one whose
descriptor is refused takes the trap of the check. -/
def Obligations.DrawsAndBands : Prop :=
  (∀ (s : State) c g a b, Scalar s c g [a.toNat, a.toNat + 1, b.toNat] →
    exec (.dkey a b) s =
      .next (goesOn s g { g with k0 := g.u a.toNat, k1 := g.u (a.toNat + 1), k2 := g.u b.toNat })) ∧
  (∀ (s : State) c g a d n f off, Scalar s c g [a.toNat, a.toNat + 1, d.toNat, n.toNat] [a.toNat, n.toNat] → g.mode = .kernel →
    s.ownDesc g (g.u64 a.toNat).toNat 32 32 = .inr off → g.localBusy = false → s.ownBad g off 32 = false →
    (ddrawFault (g.u n.toNat).toNat (s.ownBytes g off 32) = none → g.heldCount < 4 → g.ctx.canRaise (flagOf f) [] = true →
      exec (.ddraw a d n f) s = .next (drawIssued s c g f
        (.ddraw d.toNat (g.u n.toNat).toNat (s.ownBytes g off 32) [g.k0, g.k1, g.k2]))) ∧
    (∀ code v, ddrawFault (g.u n.toNat).toNat (s.ownBytes g off 32) = some (code, v) →
      exec (.ddraw a d n f) s = .next (traps s c g code 0 v))) ∧
  (∀ (s : State) c g a d f off, Scalar s c g [a.toNat, a.toNat + 1, d.toNat] [a.toNat] → g.mode = .kernel → Released s g →
    s.ownDesc g (g.u64 a.toNat).toNat 64 64 = .inr off → g.localBusy = false → s.ownBad g off 64 = false →
    (s.dposFault g (s.ownBytes g off 64) = none → g.heldCount < 4 → g.ctx.canRaise (flagOf f) [] = true →
      exec (.dpos a d f) s = .next (drawIssued s c g f (.dpos d.toNat (s.ownBytes g off 64) [g.k0, g.k1, g.k2]))) ∧
    (∀ code v, s.dposFault g (s.ownBytes g off 64) = some (code, v) →
      exec (.dpos a d f) s = .next (traps s c g code 0 v))) ∧
  (∀ (s : State) c g a f off, Scalar s c g [a.toNat, a.toNat + 1] →
    s.ownDesc g (g.u64 a.toNat).toNat 32 32 = .inr off → g.localBusy = false → s.ownBad g off 32 = false →
    (s.xbandFault (s.partOf g) (s.ownBytes g off 32) = none → g.ctx.canRaise (flagOf f) [] = true →
      exec (.xband a f) s = .next (goesOn { s with
        fresh := s.fresh + 1
        bands := s.bands ++ [{ bandOf (leNat (s.ownBytes g off 32)) with
          id := s.fresh, die := g.die, part := s.partOf g, grid := (s.blockOf g).grid, group := g.uid, core := g.core
          index := g.index, op := g.nextOp, level := g.mode.level, since := s.clk }] } g
        (g.push { work := .xband s.fresh, flag := flagOf f, pc := g.ctx.pc, word := word c.word }))) ∧
    (∀ code v, s.xbandFault (s.partOf g) (s.ownBytes g off 32) = some (code, v) →
      exec (.xband a f) s = .next (traps s c g code 0 v)))

/-! ### Traps and the handler -/

/-- Trap entry (R305 to R310, R312): in kernel mode with both paths at boundaries, no other trap waiting and no step of the stream, a code
that the vector handles, but PREEMPT, writes its frame to g24 to g31 of the shadow file, every other shadow register staying, saves the
resume PC and starts the handler at its entry; another code writes a record and ends the context. At depth 0 a code that the vector
handles nests, with its frame in g16 to g23, and another ends the context; at depth 1 every trap is a double fault, which ends the context
with reason 0xFF. Where a handler begins, no uniform register, tile, predicate, flag or counter of the context is written, and no vector
register but by writes that were on the way. -/
def Obligations.TrapEntry : Prop :=
  (∀ (s : State) g t, g.mode = .kernel → AtRest g → g.stopS.step = false → (s.gridOf g).vector.handles t.code = true →
    t.code ≠ .preempt →
    ∃ g' : Group, s.raise g 3 t = s.setGroup g' ∧ g'.uid = g.uid ∧ g'.mode = .handler ∧ g'.k.pc = t.resume ∧
      FreshHandler g.h g'.h (s.gridOf g).vector.entry ∧
      (∀ i, i < 8 → Cells.get 0 g'.sureg (24 + i) = frame t false i) ∧
      (∀ r, r < 24 ∨ 32 ≤ r → Cells.get 0 g'.sureg r = Cells.get 0 g.sureg r) ∧
      g'.ureg = g.ureg ∧ g'.tile = g.tile ∧ g'.k.q = g.k.q ∧ g'.k.queue = g.k.queue ∧ g'.k.flags = g.k.flags ∧
      g'.k.paths = g.k.paths ∧ (g.k.p0.pend = [] → g.k.p1.pend = [] → g'.vreg = g.vreg ∧ g'.k.preds = g.k.preds)) ∧
  (∀ (s : State) g t, g.mode = .kernel → AtRest g → (s.gridOf g).vector.handles t.code = false →
    s.raise g 3 t = (s.setGroup { g with trapS := some t }).unhandled { g with trapS := some t } t) ∧
  (∀ (s : State) g t, g.mode = .kernel → g.atBoundary = false → s.raise g 3 t = s.setGroup { g with trapS := some t }) ∧
  (∀ (s : State) g t stream, g.mode = .handler → (s.gridOf g).vector.handles t.code = false →
    s.raise g stream t = s.unhandled g t) ∧
  (∀ (s : State) g t, s.unhandled g t = (s.record g.die (s.gridOf g).part 0x27
    { agent := if t.lane then 1 else 0, group := some g.uid, core := g.core, index := g.index, va := t.address
      pc := if t.lane then word t.laneIndex else t.pc, mask := t.mask, grid := (s.gridOf g).uid } t.code.num).terminateGrid (s.gridOf g)
        3 0xF9) ∧
  (∀ (s : State) g t stream, g.mode = .handler → (s.gridOf g).vector.handles t.code = true →
    ∃ g' : Group, s.raise g stream t = s.setGroup g' ∧ g'.uid = g.uid ∧ g'.mode = .nested ∧ g'.k = g.k ∧
      FreshHandler g.h g'.h (s.gridOf g).vector.nested ∧
      (∀ i, i < 8 → Cells.get 0 g'.sureg (16 + i) = frame t true i) ∧
      (∀ r, r < 16 ∨ 24 ≤ r → Cells.get 0 g'.sureg r = Cells.get 0 g.sureg r) ∧
      g'.ureg = g.ureg ∧ g'.vreg = g.vreg ∧ g'.tile = g.tile) ∧
  (∀ (s : State) g t stream, g.mode = .nested → s.raise g stream t = s.terminateGrid (s.gridOf g) 3 0xFF)

/-- `trap` raises SOFTWARE and `brk` BREAKPOINT with their immediate as info (R314): in kernel mode, where the vector handles the code and
both paths stand at boundaries, the handler begins, to resume behind the `trap` or at the `brk`. The three forms of `eret` (R307, R312, R315,
R326): at depth 1 it resumes depth 0 at g22 with an empty queue; at depth 0 it resumes the context at g30, with its own queue, flags, counters
and registers, or takes MISALIGNED or ACCESS_VIOLATION, and where a PREEMPT is pending the group then takes it at once where it has drained,
before any instruction of the context; in a save entry it delivers PREEMPT again (with the PC and the resume PC of its new frame those of
the context, the model's choice, log 45); in a restore entry it completes the group's restore;
`eret.save` waits as `fence.rel` and completes a save entry, and with it the save of a block whose other groups have ended or are saved, and
is an ACCESS_VIOLATION elsewhere; `eret.term` ends the queue context with the low byte of gA. That an `eret.save` or the `eret` of a restore
waits only for deferred faults of the handler's own operations is the model's choice (log 124). -/
def Obligations.TrapsAndReturns : Prop :=
  (∀ (s : State) c g (n : BitVec 16), Scalar s c g [] →
    exec (.trap n) s = .next (traps s c g .software (n.setWidth 32) 0) ∧
    exec (.brk n) s = .next (traps s c g .breakpoint (n.setWidth 32) 0)) ∧
  (∀ (s : State) c g (n : BitVec 16), Scalar s c g [] → g.mode = .kernel → AtRest g → g.stopS.step = false →
    let v := (s.gridOf g).vector
    (v.handles .software = true → ∃ g' : Group, exec (.trap n) s = .next (s.setGroup g') ∧ g'.uid = g.uid ∧ g'.mode = .handler ∧
      g'.k.pc = g.k.pc + 4 ∧ FreshHandler g.h g'.h v.entry ∧
      ∀ i, i < 8 → Cells.get 0 g'.sureg (24 + i) =
        frame { code := .software, pc := g.k.pc, info := n.setWidth 32, resume := g.k.pc + 4, word := word c.word } false i) ∧
    (v.handles .breakpoint = true → ∃ g' : Group, exec (.brk n) s = .next (s.setGroup g') ∧ g'.uid = g.uid ∧ g'.mode = .handler ∧
      g'.k.pc = g.k.pc ∧ FreshHandler g.h g'.h v.entry ∧
      ∀ i, i < 8 → Cells.get 0 g'.sureg (24 + i) =
        frame { code := .breakpoint, pc := g.k.pc, info := n.setWidth 32, resume := g.k.pc, word := word c.word } false i)) ∧
  (∀ (s : State) c g, Scalar s c g [] → g.mode = .nested → ∃ g' : Group,
    exec .eret s = .next (s.issued g' 3 g.ctx.pc.toNat) ∧ g'.mode = .handler ∧ g'.h.pc = Cells.get 0 g.sureg 22 ∧
      g'.h.queue = [] ∧ g'.h.busy = false ∧ g'.k = g.k ∧ g'.ureg = g.ureg ∧ g'.sureg = g.sureg ∧ g'.vreg = g.vreg) ∧
  (∀ (s : State) c g, Scalar s c g [] → g.mode = .handler → g.entry = .trap → let pc := Cells.get 0 g.sureg 30
    (pc.toNat % 4 = 0 → pc.toNat + 4 ≤ (s.variantOf g).scalarSize →
      let t := (s.issued g 3 g.ctx.pc.toNat).modGroup g.uid fun x => x.leaveHandler pc
      (g.preempt = none → exec .eret s = .next t ∧ ∃ g', t.group? g.uid = some g' ∧ g'.mode = .kernel ∧ g'.k = { g.k with pc := pc } ∧
        g'.ureg = g.ureg ∧ g'.sureg = g.sureg ∧ g'.vreg = g.vreg ∧ g'.tile = g.tile) ∧
      (g.preempt ≠ none → exec .eret s = .next (t.tryPreempt g.uid)) ∧
      (∀ info base, g.preempt = some (info, base) → AtRest g → g.ops = [] → g.deferred = [] → s.partnerBusy g = false →
        (∀ f ∈ s.forwards, f.group ≠ g.uid) → (∀ y ∈ s.copies, y.owner = g.uid → y.st ≠ .started) →
        ∃ t' g', exec .eret s = .next t' ∧ t'.group? g.uid = some g' ∧ g'.mode = .handler ∧ g'.entry = .save ∧ g'.preempt = none ∧
          g'.k.pc = pc ∧ ∀ i, i < 8 → Cells.get 0 g'.sureg (24 + i) =
            frame { code := .preempt, delivery := .asynchronous, slot := 3, pc := pc, info := info, address := base, resume := pc }
              false i)) ∧
    (pc.toNat % 4 ≠ 0 → exec .eret s = .next (traps s c g .misaligned 0 0)) ∧
    (pc.toNat % 4 = 0 → (s.variantOf g).scalarSize < pc.toNat + 4 →
      exec .eret s = .next (traps s c g .accessViolation 0 0))) ∧
  (∀ (s : State) c g, Scalar s c g [] → g.mode = .handler → g.entry = .save →
    (∃ g' : Group, exec .eret s = .next (s.setGroup g') ∧ g'.uid = g.uid ∧ g'.mode = .handler ∧ g'.entry = .save ∧ g'.k.pc = g.k.pc ∧
      g'.h.pc = BitVec.ofNat 32 (s.gridOf g).vector.entry ∧ g'.h.queue = [] ∧
      ∀ i, i < 8 → Cells.get 0 g'.sureg (24 + i) =
        frame { code := .preempt, delivery := .asynchronous, slot := 3, pc := g.k.pc, info := word (s.blockOf g).reason,
                address := (s.blockOf g).save, resume := g.k.pc } false i) ∧
    (Released s g → exec .eretSave s =
      .next ((s.issued { g with saved := true } 3 g.ctx.pc.toNat).finishSave g.block)) ∧
    (Released s g → (∀ x ∈ s.groupsOf g.block, x.uid ≠ g.uid → x.exited = true ∨ x.saved = true) → ∃ t, exec .eretSave s = .next t ∧
      (∀ b ∈ t.blocks, b.uid = g.block → b.st = .saved) ∧ ∀ x ∈ t.groups, x.block ≠ g.block)) ∧
  (∀ (s : State) c g, Scalar s c g [] → g.mode = .handler → g.entry = .restore →
    g.k.pc.toNat % 4 = 0 → g.k.pc.toNat + 4 ≤ (s.variantOf g).scalarSize → Released s g →
    exec .eret s = .next ((s.issued { g with restored := true } 3 g.ctx.pc.toNat).finishRestore g.block)) ∧
  (∀ (s : State) c g, Scalar s c g [] → g.mode = .nested ∨ (g.mode = .handler ∧ g.entry ≠ .save) →
    exec .eretSave s = .next (traps s c g .accessViolation 0 0)) ∧
  (∀ (s : State) c g a, Scalar s c g [a.toNat] → Handler g →
    exec (.eretTerm a) s = .next ((s.issued g 3 g.ctx.pc.toNat).terminateGrid (s.gridOf g) 2 ((g.u a.toNat).toNat % 256)))

/-- The control-state words (R316, R324): `prd` and `pwr` wait while the handler's lane stream is not idle; where it is, `prd` writes its
register with the word of its class and index, and `pwr` writes the word, each completing on an index in the extent of its class; an index
out of it takes RESERVED_FIELD, and so does a `pwr` outside a restore entry of any word but word 38 and words 96 to 127 of class 0. The
words of R324 that the third clause names read as the state of the context that they stand for; what is written to those of the fourth
clause is what is then read there; for words 39, 60, 62, 64, 69 and 70 of a restore entry that is the model's reading (log 25). -/
def Obligations.ControlStateWords : Prop :=
  (∀ (s : State) c g (d i : BitVec 9) (k : BitVec 7), Scalar s c g [d.toNat, i.toNat] → Handler g →
    (g.ctx.laneIdle = false → exec (.prd d i k) s = .next (waits s g 9)) ∧
    (g.ctx.laneIdle = true → s.inExtent g k.toNat (g.u i.toNat).toNat = false →
      exec (.prd d i k) s = .next (traps s c g .reservedField 0 0)) ∧
    (g.ctx.laneIdle = true → s.inExtent g k.toNat (g.u i.toNat).toNat = true →
      exec (.prd d i k) s = .next (goesOn s g (g.setU d.toNat (s.prdWord g k.toNat (g.u i.toNat).toNat))))) ∧
  (∀ (s : State) c g (i v : BitVec 9) (k : BitVec 7), Scalar s c g [i.toNat, v.toNat] → Handler g →
    let n := (g.u i.toNat).toNat
    (g.ctx.laneIdle = false → exec (.pwr i v k) s = .next (waits s g 9)) ∧
    (g.ctx.laneIdle = true → s.inExtent g k.toNat n = true → (g.entry = .restore ∨ (k = 0 ∧ (n = 38 ∨ 96 ≤ n))) →
      exec (.pwr i v k) s =
        .next (goesOn (s.pwrWord g k.toNat n (g.u v.toNat)).1 g (s.pwrWord g k.toNat n (g.u v.toNat)).2)) ∧
    (g.ctx.laneIdle = true → s.inExtent g k.toNat n = false → exec (.pwr i v k) s = .next (traps s c g .reservedField 0 0)) ∧
    (g.ctx.laneIdle = true → g.entry ≠ .restore → (k ≠ 0 ∨ (n ≠ 38 ∧ n < 96)) →
      exec (.pwr i v k) s = .next (traps s c g .reservedField 0 0))) ∧
  (∀ (s : State) (g : Group), g.entry ≠ .restore →
    s.prdWord g 0 0 = g.k.pc ∧ s.prdWord g 0 1 = g.live ∧ s.prdWord g 0 2 = g.k.done ∧
    s.prdWord g 0 38 = g.k.q.setWidth 32 ∧ s.prdWord g 0 57 = g.k0 ∧ s.prdWord g 0 58 = g.k1 ∧ s.prdWord g 0 59 = g.k2 ∧
    s.prdWord g 0 70 = word g.index ∧ (∀ n, n < 12 → s.prdWord g 0 (40 + n) = word (g.k.flag n)) ∧
    (∀ n, n < 5 → s.prdWord g 0 (52 + n) = word (g.k.counter n)) ∧ (∀ n, s.prdWord g 2 n = Cells.get 0 g.tile n)) ∧
  (∀ (s : State) (g : Group) v,
    (∀ n ∈ [0, 1, 2, 57, 58, 59], (s.pwrWord g 0 n v).1.prdWord (s.pwrWord g 0 n v).2 0 n = v) ∧
    (∀ n, (s.pwrWord g 2 n v).1.prdWord (s.pwrWord g 2 n v).2 2 n = v) ∧
    (∀ n, n < 32 → (s.pwrWord g 0 (96 + n) v).1.prdWord (s.pwrWord g 0 (96 + n) v).2 0 (96 + n) = v &&& 0x7F) ∧
    (g.entry = .restore → ∀ n ∈ [39, 60, 62, 64, 69, 70], (s.pwrWord g 0 n v).1.prdWord (s.pwrWord g 0 n v).2 0 n = v))

/-- `tlbinv` and `tlbsync` (R317, R335, R339): in a handler a `tlbinv` completes for every range. The entries of the group's partition that
meet the range, all of its entries for a count of 0, leave every TLB and both walkers, and the extent runs of the partition's blocks that
meet it leave their tables; no byte of memory changes; the accesses in flight that hold a translation of the range are noted. A `tlbsync`
waits while one of those noted is not performed, and goes on otherwise. -/
def Obligations.TlbInvalidation : Prop :=
  (∀ (s : State) c g a b, Scalar s c g [a.toNat, a.toNat + 1, b.toNat] → Handler g →
    let n := (g.u b.toNat).toNat
    let va := (g.u64 a.toNat).toNat % 2 ^ 48 / 4096 * 4096
    ∃ (t : State) (x g' : Group), exec (.tlbinv a b) s = .next (goesOn t g g') ∧
      (∀ e, e ∈ t.tlbs ↔ e ∈ s.tlbs ∧ ¬ (e.part = s.partOf g ∧ Meets va n e.va e.size)) ∧
      (∀ e, e ∈ t.upper ↔ e ∈ s.upper ∧ ¬ (e.part = s.partOf g ∧ Meets va n e.va (levelBytes e.lvl))) ∧
      (∀ b y, s.block? b = some y → ∃ z, t.block? b = some z ∧ z = { y with extents := z.extents } ∧
        (((s.grid? y.grid).getD {}).part ≠ s.partOf g → z.extents = y.extents) ∧
        (((s.grid? y.grid).getD {}).part = s.partOf g →
          ∀ r, r ∈ z.extents ↔ r ∈ y.extents ∧ ¬ Meets va n r.va r.len)) ∧
      SameMemory s t ∧ SameWindow s t ∧ t.parts = s.parts ∧ t.grids = s.grids ∧
      t.group? g.uid = some x ∧ g' = { x with inval := g'.inval, invalFills := g'.invalFills } ∧
      x = { g with leaves := x.leaves, ops := x.ops } ∧ x.ops.map (·.work) = g.ops.map (·.work) ∧
      ∀ y ∈ s.groups, s.partOf y = s.partOf g → ∀ o ∈ y.ops, ∀ w ∈ o.work.placed, w.performed = false → w.locs ≠ [] →
        w.va < winBase → Meets va n w.va ((w.locs.map (·.2)).sum) → (y.uid, o.id) ∈ g'.inval) ∧
  (∀ (s : State) c g, Scalar s c g [] → Handler g →
    (s.invBusy g = false → exec .tlbsync s = .next (goesOn s g { g with inval := [], invalFills := [] })) ∧
    (s.invBusy g = true → exec .tlbsync s = .next (waits s g 8))) ∧
  (∀ (s : State) (g : Group), s.invBusy g = true ↔
    (∃ e ∈ g.inval, ∃ y o, s.group? e.1 = some y ∧ y.op? e.2 = some o ∧ ∃ w ∈ o.work.placed, w.performed = false) ∨
    (∃ e ∈ g.invalFills, ∃ f ∈ (s.die e.1).fills, (e.1, f.lane, f.part, f.va) = e))

/-- Modes (R259, R304, R306): in kernel mode the handler's instructions take PRIVILEGED, whatever registers they name; in handler
mode the kernel's take ACCESS_VIOLATION, at either depth, those on barriers for a barrier that the block has. That a `swpt` of a number
that its address has not takes it too is the model's choice (log 129). -/
def Obligations.ModeRules : Prop :=
  (∀ (s : State) c g d a b x y k, Scalar s c g [] → g.mode = .kernel → ∀ i ∈ handlerInstrs d a b x y k,
    exec i s = .next (traps s c g .privileged 0 0)) ∧
  (∀ (s : State) c g d a b (n : BitVec 4) (m : BitVec 16) x f k, Scalar s c g [] → Handler g → m ≠ 0 → m.toNat ≤ 15 →
    n.toNat < (s.blockOf g).nBar →
    ∀ i ∈ kernelInstrs d a b n m x f k, (∀ r ∈ i.2, r < g.ulimit) →
    exec i.1 s = .next (traps s c g .accessViolation 0 0))

/-- Windows (R120, R305, R311): the first uniform register named that lies at the end of the group's window or beyond, in handler
mode at g32 or beyond, takes REGISTER_RANGE with its number, before the instruction has any effect; where none does, an instruction that
reads a register of the context whose word is uncorrectable takes UNCORRECTABLE. That the first in the order of the fields is reported is
the model's choice (log 36). -/
def Obligations.RegisterWindows : Prop :=
  (∀ (s : State) c g d a b p q k n4 n2 i11 i16 i5 f o, s.cur = some c → s.group? c.group = some g →
    ∀ e ∈ windowed d a b p q k n4 n2 i11 i16 i5 f o,
      (∀ r : Reg, e.2.1.find? (fun x => decide (g.ulimit ≤ x.toNat)) = some r →
        exec e.1 s = .next (traps s c g .registerRange (word r.toNat) 0)) ∧
      ((∀ r ∈ e.2.1, r.toNat < g.ulimit) → s.badUni g e.2.2 = true → exec e.1 s = .next (traps s c g .uncorrectable 0 0))) ∧
  (∀ (s : State) (g : Group) rs, s.badUni g rs = true ↔ g.mode = .kernel ∧
    ∃ r ∈ rs, r ≠ 0 ∧ s.poisoned .uniform (groupKey g.uid (4 * r)) 4 = true) ∧
  (∀ g : Group, (g.mode = .kernel → g.ulimit = g.uwin ∧ g.vlimit = g.vwin) ∧
    (g.mode ≠ .kernel → g.ulimit = 32 ∧ g.vlimit = 16))

/-! ### Lane instructions -/

/-- What bars a lane instruction (R126, R130, R137, R253, R255, R260, R280, R311): whichever it is, a bar that is a trap is raised at once
on its lanes, before the instruction has any effect, and one that is a wait leaves the path where it is. A clause without the flag that the
instruction names takes RESERVED_FIELD, and so does, before the windows are looked at, a special register that lanes do not read, a tile
number of more than 10 bits or a view word against R280; then a register beyond the window takes REGISTER_RANGE, and a tile beyond its
window after it; then a strict feed that reads a destination, and that no lane of the path has observed (log 137), takes FEED_PENDING_WRITE; last, a shadow tile in use is waited for. Each trap is
that of all the lanes that act, those of the path whose guard holds. That REGISTER_RANGE reports the first register in field order is the
model's choice (log 36). -/
def Obligations.LaneBars : Prop :=
  (∀ (s : State) i c g l r, s.cur = some c → s.group? c.group = some g → i.laneRule = some (l, r) →
    (∀ code mask info, s.barred g c.slot i l r = some (.trap code mask info) →
      exec i s = .next (s.raiseLane g c.slot c.word code mask info 0)) ∧
    (∀ why, s.barred g c.slot i l r = some (.wait why) → exec i s = .next (s.setGroup (g.waitL why)))) ∧
  (∀ (s : State) i (g : Group) slot w l r, let m := (laneInput s g slot w l r).ex
    (¬ FlagNamed g slot l r → s.barred g slot i l r = some (.trap .reservedField m 0)) ∧
    (s.reservedOwn g i l = true → s.barred g slot i l r = some (.trap .reservedField m 0)) ∧
    (FlagNamed g slot l r → s.reservedOwn g i l = false →
      (∀ n, laneOut g l r = some n → s.barred g slot i l r = some (.trap .registerRange m (word n))) ∧
      (laneOut g l r = none →
        (∀ n, s.tileOut g i l = some n → s.barred g slot i l r = some (.trap .registerRange m (word n))) ∧
        (s.tileOut g i l = none → PathFed g ((g.reach slot l.dist.toNat).ctx.path slot).active (destRegs i l r) →
          s.barred g slot i l r = some (.trap .feedPendingWrite m 0)) ∧
        (s.tileOut g i l = none → ¬ PathFed g ((g.reach slot l.dist.toNat).ctx.path slot).active (destRegs i l r) → s.poison = [] → g.shadowBusy (namedRegs l r) = true →
          s.barred g slot i l r = some (.wait 10))))) ∧
  (∀ (s : State) (g : Group) (l : LaneOp), l.form = .imm →
    (∀ i ∈ [Instr.vaccr l, .vaccw l], (s.reservedOwn g i l = true ↔ 1024 ≤ l.imm.toNat) ∧
      (g.window ≤ l.imm.toNat → s.tileOut g i l = some l.imm.toNat) ∧ (l.imm.toNat < g.window → s.tileOut g i l = none)) ∧
    (∀ i ∈ [Instr.vsamp l, .vsgat l], s.reservedOwn g i l = true ↔
      l.imm.toNat / 2 ^ 29 % 8 ≠ 0 ∨ 159 < l.imm.toNat / 2 ^ 13 % 256 ∨ 159 < l.imm.toNat / 2 ^ 21 % 256)) ∧
  (∀ (s : State) (g : Group) slot w l r n, n < 32 →
    (laneInput s g slot w l r).ex.getLsbD n =
      (((g.reach slot l.dist.toNat).ctx.path slot).active.getLsbD n &&
        ((g.reach slot l.dist.toNat).ctx.pget l.pred.toNat n != l.neg)))

/-- Integer elements (R180): each element of the result is the exact value of the entry modulo 2^w, whatever the type; `vabs` and
`vneg` clear and invert the sign bits of a floating type and take the integer elsewhere; the logic entries act on all bits. -/
def Obligations.LaneIntegerElements : Prop :=
  (∀ (s : State) c g x (l : LaneOp), ∀ e ∈ laneIntRows (elemBits l.ty), LaneTurn s (e.1 l) c g x →
    ∃ v : Nat → Nat, exec (e.1 l) s = .next (laneWide s x 4 fun n => BitVec.ofNat 64 (v n)) ∧
      ∀ n j, n < 32 → j < l.ty.elems → v n / 2 ^ (elemBits l.ty * j) % 2 ^ elemBits l.ty =
        (e.2 (laneElem x x.a n j) (laneElem x x.b n j) (laneElem x x.c n j) % (2 ^ elemBits l.ty : Nat)).toNat) ∧
  (∀ (s : State) c g x (l : LaneOp) (neg : Bool), l.ty.setG = false →
    LaneTurn s (if neg then .vneg l else .vabs l) c g x →
    ∃ v : Nat → Nat, exec (if neg then .vneg l else .vabs l) s = .next (laneWide s x 4 fun n => BitVec.ofNat 64 (v n)) ∧
      ∀ n j, n < 32 → j < l.ty.elems → v n / 2 ^ (elemBits l.ty * j) % 2 ^ elemBits l.ty =
        ((if neg then -(laneElem x x.a n j) else ((laneElem x x.a n j).natAbs : Int)) % (2 ^ elemBits l.ty : Nat)).toNat) ∧
  (∀ (s : State) c g x (l : LaneOp) (neg : Bool), l.ty.setG = true →
    LaneTurn s (if neg then .vneg l else .vabs l) c g x →
    ∃ v : Nat → Word, exec (if neg then .vneg l else .vabs l) s = .next (laneWide s x 4 fun n => (v n).setWidth 64) ∧
      ∀ n k, n < 32 → k < 32 → (v n).getLsbD k =
        (if k % elemBits l.ty = elemBits l.ty - 1 then neg && !(lane x.a.lo n).getLsbD k else (lane x.a.lo n).getLsbD k)) ∧
  (∀ e ∈ laneBitRows, ∀ (s : State) c g x l, LaneTurn s (e.1 l) c g x →
    exec (e.1 l) s =
      .next (laneWide s x 4 fun n => e.2 (BitVec.ofNat 64 (x.a.nat l.ty n)) (BitVec.ofNat 64 (x.b.nat l.ty n)))) ∧
  (∀ (s : State) c g x (l : LaneOp), l.ty.setW = true → ∀ e ∈ laneShiftRows (elemBits l.ty), LaneTurn s (e.1 l) c g x →
    ∃ v : Nat → DWord, exec (e.1 l) s = .next (laneWide s x 4 v) ∧
      ∀ n, n < 32 → (v n).setWidth (elemBits l.ty) =
        e.2 (BitVec.ofNat (elemBits l.ty) (x.a.nat l.ty n)) ((lane x.b.lo n).toNat % elemBits l.ty))

/-- Bits, fields, carries and sums (R180, R182): the counts and the reversal; the field of R182, cut off at bit 31, extracted with
zeros or its sign and inserted; the carry and borrow chains; the sums over elements. -/
def Obligations.LaneBitsAndCarries : Prop :=
  (∀ (s : State) c g x l, l.ty.setB = true → LaneTurn s (.vclz l) c g x → ∃ v : Nat → Nat,
    exec (.vclz l) s = .next (laneWide s x 4 fun n => BitVec.ofNat 64 (v n)) ∧ ∀ n, n < 32 →
      v n ≤ 32 ∧ (∀ k, k < v n → (lane x.a.lo n).getMsbD k = false) ∧ (v n < 32 → (lane x.a.lo n).getMsbD (v n) = true)) ∧
  (∀ (s : State) c g x l, l.ty.setB = true → LaneTurn s (.vpopc l) c g x →
    exec (.vpopc l) s = .next (laneWide s x 4 fun n =>
      BitVec.ofNat 64 ((List.range 32).filter (lane x.a.lo n).getLsbD).length)) ∧
  (∀ (s : State) c g x l, l.ty.setB = true → LaneTurn s (.vbrev l) c g x → ∃ v : Nat → DWord,
    exec (.vbrev l) s = .next (laneWide s x 4 v) ∧
      ∀ n k, n < 32 → k < 32 → (v n).getLsbD k = (lane x.a.lo n).getLsbD (31 - k)) ∧
  (∀ (s : State) c g x l, l.ty.setB = true → LaneTurn s (.vbfe l) c g x → ∃ v : Nat → DWord,
    exec (.vbfe l) s = .next (laneWide s x 4 v) ∧ ∀ n k, n < 32 → k < 32 →
      let off := (lane x.b.lo n).toNat % 32
      let len := min ((lane x.b.lo n).toNat / 256 % 64) (32 - off)
      (v n).getLsbD k = (if k < len then (lane x.a.lo n).getLsbD (off + k)
        else decide (l.ty = .i32) && decide (0 < len) && (lane x.a.lo n).getLsbD (off + len - 1))) ∧
  (∀ (s : State) c g x l, l.ty = .b32 → LaneTurn s (.vbfi l) c g x → ∃ v : Nat → DWord,
    exec (.vbfi l) s = .next (laneWide s x 4 v) ∧ ∀ n k, n < 32 → k < 32 →
      let off := (lane x.b.lo n).toNat % 32
      let len := min ((lane x.b.lo n).toNat / 256 % 64) (32 - off)
      (v n).getLsbD k = (if off ≤ k ∧ k < off + len then (lane x.a.lo n).getLsbD (k - off) else (lane x.c.lo n).getLsbD k)) ∧
  (∀ (s : State) c g x l, LaneTurn s (.vaddc l) c g x →
    let v := fun n => (lane x.a.lo n).toNat + (lane x.b.lo n).toNat + (x.g.ctx.pget l.vc.toNat n).toNat
    exec (.vaddc l) s = .next (s.finishLane x (x.write [x.vec 4 l.vd.toNat ((List.range 32).map fun n => word (v n)),
      x.pred 4 l.vc.toNat fun n => decide (2 ^ 32 ≤ v n)]))) ∧
  (∀ (s : State) c g x l, LaneTurn s (.vsubb l) c g x →
    let b := fun n => (lane x.b.lo n).toNat + (x.g.ctx.pget l.vc.toNat n).toNat
    exec (.vsubb l) s = .next (s.finishLane x (x.write [
      x.vec 4 l.vd.toNat ((List.range 32).map fun n => lane x.a.lo n - word (b n)),
      x.pred 4 l.vc.toNat fun n => decide ((lane x.a.lo n).toNat < b n)]))) ∧
  (∀ (s : State) c g x (l : LaneOp) (dp : Bool), l.ty = .n8x4 ∨ l.ty = .i8x4 ∨ l.ty = .n16x2 →
    LaneTurn s (if dp then .vdp4 l else .vsad l) c g x →
    let w := elemBits l.ty
    let e := fun (v : Val) n j => elemInt l.ty ((lane v.lo n).toNat / 2 ^ (w * j))
    exec (if dp then .vdp4 l else .vsad l) s = .next (laneOne s x 4 fun n => BitVec.ofInt 32 ((lane x.c.lo n).toNat +
      (((List.range l.ty.elems).map fun j => if dp then e x.a n j * e x.b n j else ((e x.a n j - e x.b n j).natAbs : Int)).sum))))

/-- Compares, lane predicates and selection (R183 to R185): a compare writes the truth of its condition on values read as the type
says; the predicate operations; all predicates as a byte with p7 true, and back; `vsel` by a predicate. -/
def Obligations.LanePredicates : Prop :=
  (∀ (s : State) c g x l, LaneTurn s (.vcmp l) c g x →
    ∀ e ∈ ([(0, fun a b => decide (a = b)), (1, fun a b => decide (a ≠ b)), (2, fun a b => decide (a < b)),
      (3, fun a b => decide (a ≤ b)), (4, fun a b => decide (b < a)), (5, fun a b => decide (b ≤ a))] :
      List (Nat × (Int → Int → Bool))), l.vc.toNat = e.1 →
    exec (.vcmp l) s = .next (laneTruth s x 4 l.vd.toNat fun n =>
      e.2 (elemInt l.ty (x.a.nat l.ty n)) (elemInt l.ty (x.b.nat l.ty n)))) ∧
  (∀ (s : State) c g x l, LaneTurn s (.vpop l) c g x →
    let a := x.g.ctx.pget l.va.toNat
    let b := x.g.ctx.pget l.vb.toNat
    (∀ e ∈ ([(0, fun p q => p && q), (1, fun p q => p || q), (2, fun p q => p ^^ q), (3, fun p q => p && !q), (4, fun p _ => !p)] :
      List (Nat × (Bool → Bool → Bool))), l.vc.toNat = e.1 →
      exec (.vpop l) s = .next (laneTruth s x 4 l.vd.toNat fun n => e.2 (a n) (b n))) ∧
    (l.vc.toNat = 5 → ∃ v : Nat → Word, exec (.vpop l) s = .next (laneOne s x 4 v) ∧
      ∀ n k, n < 32 → k < 32 → (v n).getLsbD k = (decide (k < 8) && x.g.ctx.pget k n)) ∧
    (l.vc.toNat = 6 → exec (.vpop l) s = .next (s.finishLane x (x.write
      ((List.range 7).map fun k => x.pred 4 k fun n => (lane x.a.lo n).getLsbD k))))) ∧
  (∀ (s : State) c g x l, LaneTurn s (.vsel l) c g x →
    exec (.vsel l) s = .next (laneWide s x 4 fun n =>
      if x.g.ctx.pget l.vc.toNat n then dword (lane x.a.lo n) (lane x.a.hi n) else dword (x.fb n) (lane x.b.hi n)))

/-- Floating arithmetic (R97, R98, R112, R186 to R191): each element of a rounding entry is its exact result packed once under the
mode; the others act on patterns; the sum of two products and c is exact before it is rounded into FP32; a scaling by 2^n; a
compare that is ordered but in conditions 1 and 7. The special functions give the table's values, cause 1 on a NaN and cause 5 below zero
where R112 says so, and the sine and cosine of integers and half integers are exact; the lesser and the greater of two values keep the
bits of the operand chosen, −0 below +0. -/
def Obligations.LaneFloats : Prop :=
  (∀ e ∈ laneFloatRows, ∀ (s : State) c g x (l : LaneOp), LaneTurn s (e.1 l) c g x →
    let m := fmtOf l.ty
    ∃ v : Nat → Word, exec (e.1 l) s = .next (laneOne s x 6 v) ∧ ∀ n j, n < 32 → j < 32 / m.width →
      elem m.width (v n) j = m.pack l.rnd.toNat (e.2 l.rnd.toNat (m.num (elem m.width (lane x.a.lo n) j))
        (m.num (elem m.width (x.fb n) j)) (m.num (elem m.width (lane x.c.lo n) j))) % 2 ^ m.width) ∧
  (∀ e ∈ lanePatternRows, ∀ (s : State) c g x (l : LaneOp), LaneTurn s (e.1 l) c g x →
    let m := fmtOf l.ty
    ∃ v : Nat → Word, exec (e.1 l) s = .next (laneOne s x e.2.1 v) ∧ ∀ n j, n < 32 → j < 32 / m.width →
      elem m.width (v n) j =
        e.2.2 m l.rnd.toNat (elem m.width (lane x.a.lo n) j) (elem m.width (x.fb n) j) % 2 ^ m.width) ∧
  (∀ (s : State) c g x l, LaneTurn s (.vdot2 l) c g x →
    let m := fmtOf l.ty
    exec (.vdot2 l) s = .next (laneOne s x 6 fun n => word (fp32.pack l.rnd.toNat (Machine.Num.sum (l.rnd.toNat == 3)
      [Machine.Num.mul (m.num (elem 16 (lane x.a.lo n) 0)) (m.num (elem 16 (x.fb n) 0)),
       Machine.Num.mul (m.num (elem 16 (lane x.a.lo n) 1)) (m.num (elem 16 (x.fb n) 1)), fp32.num (lane x.c.lo n).toNat])))) ∧
  (∀ (s : State) c g x l, LaneTurn s (.vfscl l) c g x →
    let m := fmtOf l.ty
    ∃ v : Nat → Word, exec (.vfscl l) s = .next (laneOne s x 6 v) ∧ ∀ n j, n < 32 → j < 32 / m.width →
      elem m.width (v n) j = m.scale l.rnd.toNat (elem m.width (lane x.a.lo n) j)
        (BitVec.ofNat m.width (elem m.width (lane x.b.lo n) j)).toInt % 2 ^ m.width) ∧
  (∀ (s : State) c g x l, LaneTurn s (.vfcmp l) c g x →
    exec (.vfcmp l) s = .next (laneTruth s x 6 l.vd.toNat fun n =>
      condFloat l.vc.toNat (lane x.a.lo n).toNat (x.fb n).toNat)) ∧
  (∀ a b, (fp32.isNan a || fp32.isNan b) = true → ∀ k, k < 8 → condFloat k a b = decide (k = 1 ∨ k = 7)) ∧
  (∀ rnd, (∀ e ∈ specialValues, e.1 rnd e.2.1 = e.2.2) ∧
    (∀ h ∈ specialRows, ∀ v, fp32.isNan v = true → h rnd v = 0x7FC00001) ∧
    (∀ v, fp32.isNan v = false → fp32.neg v = true → fp32.mag v ≠ 0 →
      fp32.rsq rnd v = 0x7FC00005 ∧ fp32.sqrt rnd v = 0x7FC00005 ∧ fp32.log2 rnd v = 0x7FC00005) ∧
    (∀ v neg m e, fp32.num v = .fin neg m e →
      (0 ≤ e → fp32.sin rnd v = fp32.sign neg ∧ fp32.cos rnd v = if e = 0 ∧ m % 2 = 1 then 0xBF800000 else 0x3F800000) ∧
      (∀ k, e < 0 → m = k * 2 ^ (-e).toNat → fp32.sin rnd v = fp32.sign neg ∧
        fp32.cos rnd v = if k % 2 = 1 then 0xBF800000 else 0x3F800000) ∧
      (∀ k, e < 0 → m = (2 * k + 1) * 2 ^ (-e - 1).toNat → fp32.cos rnd v = 0 ∧
        fp32.sin rnd v = if neg = decide (k % 2 = 1) then 0x3F800000 else 0xBF800000))) ∧
  (∀ a b, a < 2 ^ 32 → b < 2 ^ 32 →
    (fp32.isNan a = true → fp32.isNan b = true → fp32.pick false a b = 0x7FC00001 ∧ fp32.pick true a b = 0x7FC00001) ∧
    (fp32.isNan a = true → fp32.isNan b = false → fp32.pick false a b = b ∧ fp32.pick true a b = b) ∧
    (fp32.isNan a = false → fp32.isNan b = true → fp32.pick false a b = a ∧ fp32.pick true a b = a) ∧
    (fp32.isNan a = false → fp32.isNan b = false →
      (condFloat 2 a b = true ∨ (a = 0x80000000 ∧ b = 0) → fp32.pick false a b = a ∧ fp32.pick true a b = b) ∧
      (condFloat 4 a b = true ∨ (a = 0 ∧ b = 0x80000000) → fp32.pick false a b = b ∧ fp32.pick true a b = a)) ∧
    fp32.pick false a a = (if fp32.isNan a = true then 0x7FC00001 else a))

/-- Exactness of the formats (R93, R97): a pattern that is no NaN stands for a number that every mode packs into the same
pattern. -/
def Obligations.FormatsRoundTrip : Prop :=
  ∀ f ∈ [fp32, fp16, bf16, e4m3, e5m2, e2m1], ∀ v rnd, v < 2 ^ f.width → f.isNan v = false → f.pack rnd (f.num v) = v

/-- Conversions, packing, quantisation, moves and special reads (R105, R192 to R199): the pairs of types that R192 accepts element by
element; two elements packed and the others kept; one unpacked; one quantised under a scale, or the scale itself; moves; a
special register that lanes may read, and RESERVED_FIELD for the others. -/
def Obligations.LaneConversionsAndMoves : Prop :=
  (∀ (s : State) c g x (l : LaneOp) src, Ty.ofCode l.vc.toNat = some src → cvtOk l.ty src = true →
    LaneTurn s (.vcvt l) c g x →
    ∃ v : Nat → Nat, exec (.vcvt l) s = .next (laneWide s x 6 fun n => BitVec.ofNat 64 (v n)) ∧
      ∀ n j, n < 32 → j < l.ty.elems → v n / 2 ^ (elemBits l.ty * j) % 2 ^ elemBits l.ty =
        convertTo l.ty l.rnd.toNat (numOf src (x.a.nat src n / 2 ^ (elemBits src * j) % 2 ^ elemBits src))) ∧
  (∀ (s : State) c g x l, 1 < l.ty.elems → LaneTurn s (.vpack l) c g x →
    let w := elemBits l.ty
    let u := if l.ty.setG then Ty.f32 else if l.ty.setS then .i32 else .n32
    ∃ v : Nat → Word, exec (.vpack l) s = .next (laneOne s x 6 v) ∧ ∀ n j, n < 32 → j < l.ty.elems →
      elem w (v n) j =
        (if j = 2 * l.vc.toNat + 1 then
           convertTo l.ty l.rnd.toNat (numOf u (if l.form = .imm then immFloat u (lane x.b.lo n) else lane x.b.lo n).toNat)
         else if j = 2 * l.vc.toNat then convertTo l.ty l.rnd.toNat (numOf u (lane x.a.lo n).toNat)
         else elem w (x.g.vget l.vd.toNat n) j) % 2 ^ w) ∧
  (∀ (s : State) c g x l, LaneTurn s (.vunpk l) c g x →
    let u := if l.ty.setG then Ty.f32 else if l.ty.setS then .i32 else .n32
    exec (.vunpk l) s = .next (laneOne s x 6 fun n =>
      word (convertTo u 0 (numOf l.ty (elem (elemBits l.ty) (lane x.a.lo n) l.vc.toNat))))) ∧
  (∀ (s : State) c g x l, 1 < l.ty.elems → LaneTurn s (.vquant l) c g x →
    let w := elemBits l.ty
    ∃ v : Nat → Word, exec (.vquant l) s = .next (laneOne s x 6 v) ∧ ∀ n j, n < 32 → j < l.ty.elems →
      elem w (v n) j = (if j = l.vc.toNat then
        quantise l.ty l.rnd.toNat (fp32.num (lane x.a.lo n).toNat) ((lane x.b.lo n).toNat % 256)
        else elem w (x.g.vget l.vd.toNat n) j) % 2 ^ w) ∧
  (∀ (s : State) c g x l, LaneTurn s (.vquantScale l) c g x →
    exec (.vquantScale l) s = .next (laneOne s x 6 fun n => word (blockScale l.ty (fp32.num (lane x.a.lo n).toNat)))) ∧
  (∀ (s : State) c g x l, LaneTurn s (.vmov l) c g x →
    exec (.vmov l) s = .next (laneWide s x 4 fun n => dword (lane x.b.lo n) (lane x.b.hi n))) ∧
  (∀ (s : State) c g x l, LaneTurn s (.vmovi l) c g x →
    exec (.vmovi l) s = .next (laneWide s x 4 fun n => dword (x.fb n) (lane x.b.hi n))) ∧
  (∀ (s : State) c g x l, LaneTurn s (.vsrd l) c g x → ∃ v : Nat → Word, exec (.vsrd l) s = .next (laneOne s x 4 v) ∧ ∀ n, n < 32 →
    (l.imm = 0 → v n = word n) ∧ (l.imm = 0x16 → v n = x.act) ∧ (l.imm = 0x17 → v n = word (pathIndex x.p x.slot)) ∧
    (∀ w, s.sreg g l.imm.toNat = some w → v n = word w)) ∧
  (∀ (s : State) (g : Group) slot l r, s.laneReads g l.imm.toNat = false →
    ∃ m, s.barred g slot (.vsrd l) l r = some (.trap .reservedField m 0)) ∧
  (∀ (s : State) (g : Group) n, s.laneReads g n = true ↔
    if n ∈ [0, 0x16, 0x17] then g.mode = .kernel
    else n ∈ [0x01, 0x02, 0x03, 0x04, 0x05, 0x06, 0x07, 0x08, 0x09, 0x0A, 0x0B, 0x0C, 0x0D, 0x0E, 0x13, 0x18, 0x19, 0x1A, 0x1B])

/-- Collectives (R200 to R205): a shuffle takes the lane its mode names where that lane contributes and its own value otherwise; a
scan combines the contributors up to each lane, or before it; a reduction, a ballot and the first lane write a uniform
register as one operation in flight, which waits for room in its flag, and the write itself. What the contributors combine to: the sum of
integers modulo 2^w, their least and greatest, the bitwise operations, the exact sum of FP32 values rounded once with NaNs and infinities
before it, and with no contributor the identity of the operation. Choices of the model: one contributor alone keeps its bits under FP32 min
and max, a NaN too (log 38), and a pair that is written whole has valid checks again (log 6). -/
def Obligations.LaneCollectives : Prop :=
  (∀ (s : State) c g x (l : LaneOp), LaneTurn s (.vshfl l) c g x → ∃ v : Nat → Word,
    exec (.vshfl l) s = .next (laneOne s x 8 v) ∧ ∀ n, n < 32 →
      let b := (lane x.b.lo n).toNat
      (∀ k, k < 32 → (l.vc = 0 ∧ k = b) ∨ (l.vc = 1 ∧ k + b = n) ∨ (l.vc = 2 ∧ k = n + b) ∨ (l.vc = 3 ∧ k = Nat.xor n b) →
        v n = if x.ex.getLsbD k then lane x.a.lo k else lane x.a.lo n) ∧
      ((l.vc = 0 ∧ 32 ≤ b) ∨ (l.vc = 1 ∧ n < b) ∨ (l.vc = 2 ∧ 32 ≤ n + b) ∨ (l.vc = 3 ∧ 32 ≤ Nat.xor n b) →
        v n = lane x.a.lo n)) ∧
  (∀ (s : State) c g x l, LaneTurn s (.vscan l) c g x →
    exec (.vscan l) s = .next (laneWide s x 8 fun n => BitVec.ofNat 64 (combine l.ty (l.vc.toNat % 8) l.rnd.toNat
      (((List.range (if l.vc.getLsbD 3 then n else n + 1)).filter fun k => decide (k < 32) && x.ex.getLsbD k).map
        (x.a.nat l.ty))))) ∧
  (∀ (s : State) c g x l, LaneTurn s (.vred l) c g x →
    let v := combine l.ty l.vc.toNat l.rnd.toNat (((List.range 32).filter x.ex.getLsbD).map (x.a.nat l.ty))
    (x.g.ctx.canRaise x.flag [] = true →
      exec (.vred l) s = .next (laneUniform s x (if l.ty.regs = 2 then [word v, word (v / 2 ^ 32)] else [word v]))) ∧
    (x.g.ctx.canRaise x.flag [] = false → exec (.vred l) s = .next (s.setGroup (g.waitL 12)))) ∧
  (∀ (s : State) c g x l, LaneTurn s (.vballot l) c g x → x.g.ctx.canRaise x.flag [] = true → ∃ v : Word,
    exec (.vballot l) s = .next (laneUniform s x [v]) ∧
      ∀ n, n < 32 → v.getLsbD n = (x.ex.getLsbD n && x.g.ctx.pget l.va.toNat n)) ∧
  (∀ (s : State) c g x l, LaneTurn s (.vfirst l) c g x → x.g.ctx.canRaise x.flag [] = true → ∃ v : Word,
    exec (.vfirst l) s = .next (laneUniform s x [v]) ∧ (x.ex = 0 → v = BitVec.allOnes 32) ∧
      (∀ n, x.ex.getLsbD n = true → (∀ k, k < n → x.ex.getLsbD k = false) → v = word n)) ∧
  (∀ (s : State) u op g o r, s.group? u = some g → g.op? op = some o →
    (∀ v, o.work = .collective r [v] →
      exec (.collectiveWrite u op) s = .next (s.setGroup ((g.landU o.level r v).retire o))) ∧
    (∀ v w, o.work = .collective r [v, w] →
      exec (.collectiveWrite u op) s =
        .next ((pairLanded s g o r).setGroup (((g.landU o.level r v).landU o.level (r + 1) w).retire o)))) ∧
  (∀ t rnd, t ≠ .f32 → (t = .i32 ∨ t = .n32 ∨ t = .b32 ∨ t = .i64 ∨ t = .n64) → ∀ xs : List Nat, (∀ v ∈ xs, v < 2 ^ elemBits t) →
    combine t 0 rnd xs = xs.sum % 2 ^ elemBits t ∧
    (xs ≠ [] → combine t 1 rnd xs ∈ xs ∧ combine t 2 rnd xs ∈ xs ∧
      ∀ v ∈ xs, elemInt t (combine t 1 rnd xs) ≤ elemInt t v ∧ elemInt t v ≤ elemInt t (combine t 2 rnd xs)) ∧
    (∀ v, v < 2 ^ elemBits t → elemInt t v ≤ elemInt t (combine t 1 rnd []) ∧ elemInt t (combine t 2 rnd []) ≤ elemInt t v) ∧
    combine t 1 rnd [] < 2 ^ elemBits t ∧ combine t 2 rnd [] < 2 ^ elemBits t ∧
    ∀ k, k < elemBits t →
      (combine t 3 rnd xs).testBit k = xs.all (·.testBit k) ∧ (combine t 4 rnd xs).testBit k = xs.any (·.testBit k) ∧
      (combine t 5 rnd xs).testBit k = decide ((xs.filter (·.testBit k)).length % 2 = 1)) ∧
  (∀ rnd, combine .f32 0 rnd [] = 0 ∧ combine .f32 1 rnd [] = 0x7F800000 ∧ combine .f32 2 rnd [] = 0xFF800000) ∧
  (∀ rnd (xs : List Nat), xs ≠ [] → (∀ v ∈ xs, v < 2 ^ 32) →
    ((∃ v ∈ xs, fp32.isNan v = true) → combine .f32 0 rnd xs = 0x7FC00001) ∧
    ((∀ v ∈ xs, fp32.isNan v = false) →
      (0x7F800000 ∈ xs → 0xFF800000 ∈ xs → combine .f32 0 rnd xs = 0x7FC00003) ∧
      (0x7F800000 ∈ xs → 0xFF800000 ∉ xs → combine .f32 0 rnd xs = 0x7F800000) ∧
      (0x7F800000 ∉ xs → 0xFF800000 ∈ xs → combine .f32 0 rnd xs = 0xFF800000) ∧
      (0x7F800000 ∉ xs → 0xFF800000 ∉ xs → ∃ (lo : Int) (neg : Bool) (m : Nat),
        (∀ v ∈ xs, lo ≤ (fp32.num v).exp) ∧
        (if neg then -(m : Int) else m) = (xs.map fun v => (fp32.num v).scaled lo).sum ∧
        (m = 0 → neg = (xs.all (· == 0x80000000) || (!xs.all (· == 0) && rnd == 3))) ∧
        combine .f32 0 rnd xs = fp32.round rnd neg m lo))) ∧
  (∀ rnd a r, combine .f32 1 rnd (a :: r) = r.foldl (fp32.pick false) a ∧ combine .f32 2 rnd (a :: r) = r.foldl (fp32.pick true) a)

/-- Lane memory (R206 to R214, R216): a load, a store, an atomic and a reduction whose lanes pass their checks issue as one operation
with the address, the bytes and the data of each lane whose guard holds; where some lane traps, whatever the others wait for, the lowest
of those gives the code and the address, and every lane with that code is in the mask; a prefetch has no effect. -/
def Obligations.LaneMemory : Prop :=
  (∀ (s : State) c g x (l : LaneOp) acc, LaneTurn s (.vld l) c g x →
    LanesPass s x .read 1 (laneBytes l.vc l.ty) (laneAddress x l.vc) acc →
    exec (.vld l) s = .next (laneAccess s x (.load (laneBytes l.vc l.ty) (l.ty == .i32 && laneBytes l.vc l.ty < 4))
      (.vec l.vd.toNat) acc fun _ => [])) ∧
  (∀ (s : State) c g x (l : LaneOp) acc, LaneTurn s (.vst l) c g x →
    LanesPass s x .write 1 (laneBytes l.vd l.ty) (laneAddress x l.vd) acc →
    exec (.vst l) s = .next (laneAccess s x .store .none acc fun n =>
      if laneBytes l.vd l.ty = 16 then (upFrom l.vc.toNat 4).flatMap fun r => leBytes 4 (x.g.vget r n).toNat
      else (leBytes 8 ((lane x.c.lo n).toNat + 2 ^ 32 * (lane x.c.hi n).toNat)).take (laneBytes l.vd l.ty))) ∧
  (∀ (s : State) c g x (l : LaneOp) acc, LaneTurn s (.vatom l) c g x →
    LanesPass s x .atomic (4 * l.ty.regs) (4 * l.ty.regs) (laneAddress x l.vc) acc →
    exec (.vatom l) s = .next (laneAccess s x (.atomic { op := l.vc.toNat % 16, size := 4 * l.ty.regs }) (.vec l.vd.toNat) acc
      fun n => (upFrom l.vd.toNat (if l.vc.toNat % 16 = 9 then 2 * l.ty.regs else l.ty.regs)).flatMap fun r =>
        leBytes 4 (x.g.vget r n).toNat)) ∧
  (∀ (s : State) c g x (l : LaneOp) acc, LaneTurn s (.vmred l) c g x →
    LanesPass s x .atomic (4 * l.ty.regs) (4 * l.ty.regs) (laneAddress x l.vd) acc →
    exec (.vmred l) s = .next (laneAccess s x (.atomic { op := l.vd.toNat % 16, size := 4 * l.ty.regs }) .none acc fun n =>
      (leBytes 8 ((lane x.c.lo n).toNat + 2 ^ 32 * (lane x.c.hi n).toNat)).take (4 * l.ty.regs))) ∧
  (∀ (s : State) c g x l, ∀ e ∈ laneAccesses l, LaneTurn s e.1 c g x →
    let check := fun n => s.check x.g e.2.1 e.2.2.1 (laneAddress x e.2.2.2.2 n) e.2.2.2.1
    ∀ n code va, n < 32 → x.ex.getLsbD n = true → check n = .trap code va →
      (∀ k y z, k < n → x.ex.getLsbD k = true → check k ≠ .trap y z) →
      ∃ m : Word, exec e.1 s = .next (laneTraps s x code m 0 va) ∧
        ∀ k, k < 32 → (m.getLsbD k = true ↔ x.ex.getLsbD k = true ∧ ∃ z, check k = .trap code z)) ∧
  (∀ (s : State) c g x l, LaneTurn s (.vprf l) c g x → exec (.vprf l) s = .next (s.finishLane x (.go x.g)))

/-- A deferred fault of the mode of the group is one of a flag for which a clause header waits (R217). -/
def Sys2Proof.Claims.WaitedFor (g : Group) (h : Header) (d : Deferred) : Prop :=
  d.level = g.mode.level ∧ ∃ f, f < 12 ∧ d.flag = some f ∧ h.wait.getLsbD f = true

/-- Lane control (R20 to R22, R128, R129, R161, R217, R220 to R230): a header starts its clause with its count and sets once its flags
are zero, or delivers the earliest deferred fault where one of theirs is pending; a block starts with its mask in the live lanes; a branch whose indices lie in the section goes where its lanes go, all together
where they agree, and where they do not as R228 has it: a side that goes to the reconvergence index leaves the path, else the sides take
the two slots, or the taken side waits on the stack, or the lanes run one after another from the lowest on; a `vbrx` splits off the lanes
of the least target, and takes ACCESS_VIOLATION on every active lane whose target is out of the section; `vend` ends the active lanes,
`vexit` those whose guard holds, which leave the live-lane mask; `vnop` does nothing. At a clause boundary a path that is not at its
reconvergence index goes on; one that is takes back its lanes, its entry's waiting side, or its entry's merged lanes; two that have
arrived at one index merge; a serial run goes to its next lane; and the block completes when each of its lanes has ended. No branch and no
boundary loses a lane: what the paths and stacks hold, with the lanes that have ended, stays the same. That `vexit` clears the one live-lane
mask of the group in handler mode too is the model's choice (log 40). -/
def Obligations.LaneControl : Prop :=
  (∀ (s : State) c g (h : Header), s.cur = some c → s.group? c.group = some g →
    ((∃ f, f < 12 ∧ h.wait.getLsbD f = true ∧ g.ctx.flag f ≠ 0) → exec (.clauseStart h) s = .next (s.setGroup (g.waitL 7))) ∧
    ((∀ f, f < 12 → h.wait.getLsbD f = true → g.ctx.flag f = 0) → (∃ d ∈ g.deferred, WaitedFor g h d) →
      ∃ e, Earliest g e ∧ exec (.clauseStart h) s = .next (s.raise g c.slot.toNat
        { e.trap with op := some e.op, resume := g.ctx.pc, pc := if e.trap.lane then g.ctx.pc else e.trap.pc })) ∧
    ((∀ f, f < 12 → h.wait.getLsbD f = true → g.ctx.flag f = 0) → (∀ d ∈ g.deferred, ¬ WaitedFor g h d) → ∃ g' : Group,
      exec (.clauseStart h) s = .next (s.setGroup g') ∧ g'.ctx.path c.slot = { g.ctx.path c.slot with
        pc := (g.ctx.path c.slot).pc + 1, left := h.count.toNat + 1, again := none
        setA := if h.setAv then some h.setA.toNat else none, setB := if h.setBv then some h.setB.toNat else none } ∧
      g' = { g with k := g'.k, h := g'.h, feeds := g'.feeds } ∧ g'.ctx.flags = g.ctx.flags ∧
      g'.feeds = observedByPath g (g.ctx.path c.slot).active h.wait)) ∧
  (∀ (s : State) u g i m rest, s.group? u = some g → g.ctx.queue = (i, m) :: rest → g.ctx.busy = false → g.trapWaits = false →
    exec (.laneBlockStart u) s = .next (s.setGroup (Group.setCtx { g with feeds := feedsAtStart g } { g.ctx with
      queue := rest, busy := m &&& g.live != 0, start := m &&& g.live, done := 0, s0 := [], s1 := [], p1 := {}
      p0 := if m &&& g.live = 0 then {} else { st := .running, pc := i, mask := m &&& g.live } }))) ∧
  (∀ (s : State) c g x (l : LaneOp), LaneTurn s (.vbr l) c g x →
    let t := l.imm.toNat % 2 ^ 16
    let r := l.imm.toNat / 2 ^ 16
    (t < s.laneCount g → r < s.laneCount g → exec (.vbr l) s = .next (s.finishLane x (.go (x.settled.setCtx
      (x.settled.ctx.branch x.slot x.p.pc t (x.p.pc + 1) r x.act x.ex))))) ∧
    (s.laneCount g ≤ t ∨ s.laneCount g ≤ r → exec (.vbr l) s = .next (laneTraps s x .accessViolation x.ex 0 0))) ∧
  (∀ (s : State) c g x (l : LaneOp), LaneTurn s (.vbrx l) c g x →
    let target := fun n => if x.ex.getLsbD n then (lane x.a.lo n).toNat else x.p.pc + 1
    let out := x.act &&& maskOf fun n => decide (s.laneCount g ≤ target n)
    (out ≠ 0 → exec (.vbrx l) s = .next (laneTraps s x .accessViolation out 0 0)) ∧
    (out = 0 → s.laneCount g ≤ l.imm.toNat % 2 ^ 16 →
      exec (.vbrx l) s = .next (laneTraps s x .accessViolation x.ex 0 0)) ∧
    (out = 0 → l.imm.toNat % 2 ^ 16 < s.laneCount g →
      ∀ k, k < 32 → x.act.getLsbD k = true → (∀ n, n < 32 → x.act.getLsbD n = true → target k ≤ target n) → target k < 2 ^ 32 →
      let b := x.settled.ctx.branch x.slot x.p.pc (target k) x.p.pc (l.imm.toNat % 2 ^ 16) x.act
        (x.act &&& maskOf fun n => decide (target n = target k))
      ∃ y : Ctx, exec (.vbrx l) s = .next (s.finishLane x (.go (x.settled.setCtx y))) ∧
        y = { b with p0 := { b.p0 with xAt := y.p0.xAt }, p1 := { b.p1 with xAt := y.p1.xAt } })) ∧
  (∀ (s : State) c g x l, LaneTurn s (.vend l) c g x →
    exec (.vend l) s = .next (s.finishLane x (.go (x.settled.setCtx (x.settled.ctx.endLanes x.slot x.act))))) ∧
  (∀ (s : State) c g x l, LaneTurn s (.vexit l) c g x →
    exec (.vexit l) s = .next (s.finishLane x (.go { x.settled.setCtx (x.settled.ctx.endLanes x.slot x.ex) with
      live := x.settled.live &&& ~~~x.ex }))) ∧
  (∀ (s : State) c g x l, LaneTurn s (.vnop l) c g x → exec (.vnop l) s = .next (s.finishLane x (.go x.g))) ∧
  (∀ (c : Ctx) slot i t f r act taken, (c.path slot).serial = none →
    (act &&& ~~~taken = 0 → c.branch slot i t f r act taken = c.setPath slot ((c.path slot).goTo t act)) ∧
    (act &&& ~~~taken ≠ 0 → taken = 0 → c.branch slot i t f r act taken = c.setPath slot ((c.path slot).goTo f act))) ∧
  (∀ (c : Ctx) slot i t f r act taken, let p := c.path slot
    let n := act &&& ~~~taken
    p.serial = none → n ≠ 0 → taken ≠ 0 →
    (p.rc = some t → c.branch slot i t f r act taken = c.setPath slot { p with
      pc := f, mask := n, left := 0, w := if c.stack slot = [] then p.w ||| taken else p.w }) ∧
    (p.rc ≠ some t → p.rc = some f → c.branch slot i t f r act taken = c.setPath slot { p with
      pc := t, mask := taken, left := 0, w := if c.stack slot = [] then p.w ||| n else p.w }) ∧
    (p.rc ≠ some t → p.rc ≠ some f →
      ((c.path !slot).st = .free ∧ p.rc = none ∧ c.stack slot = [] → c.branch slot i t f r act taken = { c with
        p0 := { st := .running, pc := f, mask := n, rc := some r }
        p1 := { st := .running, pc := t, mask := taken, rc := some r } }) ∧
      (¬ ((c.path !slot).st = .free ∧ p.rc = none ∧ c.stack slot = []) →
        (c.s0.length + c.s1.length < c.granted → c.branch slot i t f r act taken =
          (c.setStack slot ({ waitPc := t, waitMask := taken, rcv := r, outer := p.rc, merge := act } :: c.stack slot)).setPath slot
            { p with pc := f, mask := n, left := 0, rc := some r }) ∧
        (c.granted ≤ c.s0.length + c.s1.length → ∀ l, act.getLsbD l = true → (∀ k, k < l → act.getLsbD k = false) →
          c.branch slot i t f r act taken = c.setPath slot { p with
            pc := if taken.getLsbD l then t else f, mask := act, left := 0
            serial := some { branch := i, rcv := r, lane := l } })))) ∧
  (∀ (c : Ctx) slot, let p := c.path slot
    p.st = .running → p.left = 0 → p.serial = none →
    (p.mask ≠ 0 → p.rc ≠ some p.pc → c.slotBoundary slot = c) ∧
    (p.mask ≠ 0 → p.rc = some p.pc → c.stack slot = [] →
      c.slotBoundary slot = c.setPath slot { p with mask := p.mask ||| p.w, w := 0, st := .arrived }) ∧
    (∀ e rest, p.mask = 0 ∨ p.rc = some p.pc → c.stack slot = e :: rest →
      (e.phase = false → e.waitMask &&& ~~~c.done ≠ 0 → e.rcv ≠ e.waitPc → c.slotBoundary slot =
        (c.setStack slot ({ e with phase := true } :: rest)).setPath slot
          { p with mask := e.waitMask &&& ~~~c.done, pc := e.waitPc, rc := some e.rcv }) ∧
      (e.phase = true → e.merge &&& ~~~c.done ≠ 0 → e.outer ≠ some e.rcv → c.slotBoundary slot =
        (c.setStack slot rest).setPath slot { p with mask := e.merge &&& ~~~c.done, pc := e.rcv, rc := e.outer }))) ∧
  (∀ c : Ctx, (c.p0.st = .arrived → c.p1.st = .arrived → c.p0.rc = c.p1.rc → (c.p0.mask ||| c.p1.mask) &&& ~~~c.done ≠ 0 →
      c.merge = { c with p0 := { st := .running, pc := c.p0.pc, mask := (c.p0.mask ||| c.p1.mask) &&& ~~~c.done }, p1 := {} }) ∧
    (c.p0.st ≠ .arrived ∨ c.p1.st ≠ .arrived ∨ c.p0.rc ≠ c.p1.rc → c.merge = c) ∧
    (c.complete.busy = true ↔ c.busy = true ∧ c.start &&& ~~~c.done ≠ 0)) ∧
  (∀ (c : Ctx) slot v, let p := c.path slot
    p.serial = some v → p.mask.getLsbD v.lane = true →
    (p.pc ≠ v.rcv → p.rc ≠ some p.pc → c.serialNext slot = c) ∧
    (p.pc = v.rcv → ∀ l, v.lane < l → p.mask.getLsbD l = true → (∀ k, v.lane < k → k < l → p.mask.getLsbD k = false) →
      c.serialNext slot = c.setPath slot { p with serial := some { v with lane := l }, pc := v.branch }) ∧
    (p.pc = v.rcv → (∀ l, v.lane < l → p.mask.getLsbD l = false) →
      c.serialNext slot = c.setPath slot { p with serial := none, pc := v.rcv })) ∧
  (∀ (c : Ctx) slot i t f r act taken, LanesKept c → (c.path slot).st = .running →
    ((c.path slot).serial = none → act = (c.path slot).mask) → taken &&& ~~~act = 0 →
    let b := c.branch slot i t f r act taken
    LanesKept b ∧ heldLanes b = heldLanes c ∧ b.done = c.done) ∧
  (∀ c : Ctx, LanesKept c → LanesKept c.boundary ∧ c.boundary.done = c.done ∧
    heldLanes c.boundary ||| c.done = heldLanes c ||| c.done) ∧
  (∀ c : Ctx, LanesKept c → LanesKept c.join ∧ c.join.done = c.done ∧ heldLanes c.join ||| c.done = heldLanes c ||| c.done) ∧
  (∀ (c : Ctx) slot m, LanesKept c → m &&& ~~~(c.path slot).mask = 0 → LanesKept (c.endLanes slot m) ∧
    (c.endLanes slot m).done = c.done ||| m ∧
    heldLanes (c.endLanes slot m) ||| (c.endLanes slot m).done = heldLanes c ||| c.done)

/-- Streams, tiles and engine commands (R253 to R255, R259, R278 to R290): each issues as one operation with the registers that it
reads, once its fields pass; a feed in a handler takes ACCESS_VIOLATION, one without a segment MATRIX_COMBINATION; a tile number of more than
10 bits and a view word against R280 take RESERVED_FIELD, a tile beyond the window REGISTER_RANGE, a view that leaves the share
ACCESS_VIOLATION. That `vprobe` takes the whole 64-bit pair after the bin pair as the address of the triangle list is the model's choice
(log 53). -/
def Obligations.LaneUnits : Prop :=
  (∀ (s : State) c g x (l : LaneOp), LaneTurn s (.vfeed l) c g x →
    let k := l.vc.toNat % 4
    let n := l.vc.toNat / 4 % 8 + 1
    (g.mode ≠ .kernel → exec (.vfeed l) s = .next (laneTraps s x .accessViolation x.ex 0 0)) ∧
    (g.mode = .kernel → g.seg k = none → exec (.vfeed l) s = .next (laneTraps s x .matrixCombination x.ex 0 0)) ∧
    (g.mode = .kernel → g.seg k ≠ none → x.g.ctx.canRaise x.flag [] = true →
      let strict := (s.gridOf g).strict || l.vc.getLsbD 5
      exec (.vfeed l) s = .next (laneTile s x (.vfeed k ((lane x.b.lo 0).toNat % 65536) l.va.toNat n x.ex strict) fun y =>
        { y with
          feeds := y.feeds ++ [{ op := x.g.nextOp, reg := l.va.toNat, n := n, flag := x.flag.getD 0, strict := strict, past := x.act }] }))) ∧
  (∀ (s : State) c g x (l : LaneOp) (wr : Bool), LaneTurn s (if wr then .vaccw l else .vaccr l) c g x →
    let t := (lane x.b.lo 0).toNat
    (t < 1024 → t < g.window → x.g.ctx.canRaise x.flag [] = true →
      exec (if wr then .vaccw l else .vaccr l) s = .next (laneTile s x
        (if wr then .vaccw t x.ex ((upFrom l.va.toNat 8).map x.g.vread) else .vaccr t l.vd.toNat x.ex) id)) ∧
    (t < 1024 → t < g.window → x.g.ctx.canRaise x.flag [] = false →
      exec (if wr then .vaccw l else .vaccr l) s = .next (s.setGroup (g.waitL 12)))) ∧
  (∀ (s : State) (g : Group) slot w (l : LaneOp) r n, Names s g l n → let m := (laneInput s g slot w l r).ex
    (∀ i ∈ [Instr.vaccr l, .vaccw l],
      (1024 ≤ n → s.barred g slot i l r = some (.trap .reservedField m 0)) ∧
      (n < 1024 → g.window ≤ n → FlagNamed g slot l r → laneOut g l r = none →
        s.barred g slot i l r = some (.trap .registerRange m (word n)))) ∧
    (∀ i ∈ [Instr.vsamp l, .vsgat l], n / 2 ^ 29 % 8 ≠ 0 ∨ 159 < n / 2 ^ 13 % 256 ∨ 159 < n / 2 ^ 21 % 256 →
      s.barred g slot i l r = some (.trap .reservedField m 0))) ∧
  (∀ (s : State) c g x (l : LaneOp), ∀ i ∈ [Instr.vsamp l, .vsgat l], LaneTurn s i c g x →
    s.viewFault g (lane x.b.lo 0) = some .accessViolation → exec i s = .next (laneTraps s x .accessViolation x.ex 0 0)) ∧
  (∀ (s : State) (g : Group) (w : Word), w.toNat / 2 ^ 29 = 0 → w.toNat / 2 ^ 13 % 256 < 160 → w.toNat / 2 ^ 21 % 256 < 160 →
    let v := viewOf w
    v.w = w.toNat / 2 ^ 13 % 256 + 1 ∧ v.h = w.toNat / 2 ^ 21 % 256 + 1 ∧ v.base = 65536 * (w.toNat % 2 ^ 13) ∧
    (s.viewFault g w = none ↔ v.base + 1025 * v.w * v.h ≤ (s.sampleShare g.die (s.partOf g)).2) ∧
    (s.viewFault g w = some .accessViolation ↔ (s.sampleShare g.die (s.partOf g)).2 < v.base + 1025 * v.w * v.h)) ∧
  (∀ (s : State) c g x (l : LaneOp), LaneTurn s (.vsamp l) c g x → s.viewFault g (lane x.b.lo 0) = none →
    (∀ n, n < 32 → x.ex.getLsbD n = true → (viewOf (lane x.b.lo 0)).tile (x.g.vget l.va.toNat n) ≠ none) →
    (s.gridOf g).strict = false ∨ s.holdsToken g = true → x.g.ctx.canRaise x.flag [4] = true →
    exec (.vsamp l) s = .next (laneCommand s x (.vsamp (lane x.b.lo 0) (x.requests l.va.toNat 8) false))) ∧
  (∀ (s : State) c g x (l : LaneOp), x.g.ctx.canRaise x.flag [4] = true →
    (LaneTurn s (.vtrace l) c g x → exec (.vtrace l) s =
      .next (laneCommand s x (.vtrace (x.b.wide 0).toNat l.vd.toNat (x.requests l.va.toNat 8)))) ∧
    (LaneTurn s (.vtex l) c g x → exec (.vtex l) s =
      .next (laneCommand s x (.vtex (x.b.wide 0).toNat l.vd.toNat (x.requests l.va.toNat 3)))) ∧
    (LaneTurn s (.vprobe l) c g x →
      let bins := (x.b.wide 0).toNat
      (∀ n, n < 32 → x.ex.getLsbD n = true →
        View.tile { w := bits bins 55 48 + 1, h := bits bins 63 56 + 1, base := 0 } (lane x.a.lo n) ≠ none) →
      exec (.vprobe l) s = .next (laneCommand s x (.vprobe bins (g.u64 (l.imm.toNat % 512 + 2)).toNat l.vd.toNat
        ((lanesOf x.ex).map fun n => (n, lane x.a.lo n)))))) ∧
  (∀ (s : State) c g x (l : LaneOp), LaneTurn s (.vsgat l) c g x → s.viewFault g (lane x.b.lo 0) = none →
    (∀ n, n < 32 → x.ex.getLsbD n = true →
      (lane x.a.lo n).toNat % 2 ^ 15 < (viewOf (lane x.b.lo 0)).w * (viewOf (lane x.b.lo 0)).h ∧
      (lane x.c.lo n).toNat % 32 = 0 ∧ (lane x.c.lo n).toNat + 32 ≤ (s.ownShare g).2) →
    x.g.ctx.canRaise x.flag [4] = true →
    exec (.vsgat l) s = .next (laneCommand s x (.vsgat (lane x.b.lo 0) (lane x.b.hi 0) l.vd.toNat
      ((lanesOf x.ex).map fun n => (n, lane x.a.lo n)) ((lanesOf x.ex).map fun n => (n, lane x.c.lo n)) (s.partOf g)))) ∧
  (∀ (s : State) c g x (l : LaneOp) (acc : Nat → Acc), LaneTurn s (.vrowpk l) c g x →
    (∀ n, n < 32 → x.ex.getLsbD n = true → ∃ sd,
      s.check x.g .write 1 ((x.b.wide 0).toNat + 4 * (lane x.c.lo n).toNat : Nat) 4 = .ok (acc n) sd ∧
      (sd = true → (s.gridOf g).strict = true → s.holdsToken g = true)) →
    x.g.ctx.canRaise x.flag [4] = true →
    let accs : List Acc := (lanesOf x.ex).map fun n => { acc n with
      lane := n, held := false
      data := leBytes 4 (pixelWord (l.vd.toNat == 1) (x.g.vget l.va.toNat n).toNat (x.g.vget (l.va.toNat + 1) n).toNat
        (x.g.vget (l.va.toNat + 2) n).toNat).toNat }
    exec (.vrowpk l) s = .next (laneCommand (accs.foldl (fun (t : State) a => t.useAcc g a) s) x (.mem .store .none accs)))

/-- Frame of the fixed-latency lane instructions (R124, R131, R176 to R203): one that gives a next state takes a precise trap, or
leaves every uniform register, group predicate, tile, flag, counter and operation as they are, every byte of memory, every window register
and every other group too; a vector register or lane predicate that it does not name, and one that it names in a lane whose guard
does not hold, is as it was, where the path had no write of its own on the way; what is on the way afterwards is its own writes. -/
def Obligations.LaneFrame : Prop :=
  ∀ (s t : State) i c g x ds, LaneTurn s i c g x → laneDests i = some ds → CalmPaths g →
    g.ctx.p0.pend = [] → g.ctx.p1.pend = [] → exec i s = .next t →
    (∃ code mask, t = s.raiseLane g c.slot c.word code mask 0 0) ∨
    ∃ g' : Group, t.group? g.uid = some g' ∧ g'.ureg = g.ureg ∧ g'.sureg = g.sureg ∧ g'.tile = g.tile ∧ g'.ops = g.ops ∧
      g'.mode = g.mode ∧ g'.ctx.q = g.ctx.q ∧ g'.ctx.flags = g.ctx.flags ∧ g'.ctx.paths = g.ctx.paths ∧ g'.ctx.pc = g.ctx.pc ∧
      (g.mode = .kernel → g'.h = g.h ∧ g'.svreg = g.svreg) ∧ (g.mode ≠ .kernel → g'.k = g.k ∧ g'.vreg = g.vreg) ∧
      (∀ r n, n < 32 → r ∉ ds.1 ∨ x.ex.getLsbD n = false → g'.vget r n = g.vget r n) ∧
      (∀ r n, n < 32 → r ∉ ds.2 ∨ x.ex.getLsbD n = false → g'.ctx.pget r n = g.ctx.pget r n) ∧
      (∀ p ∈ g'.ctx.p0.pend ++ g'.ctx.p1.pend,
        p.mask = x.ex ∧ (p.pred = false → p.reg ∈ ds.1) ∧ (p.pred = true → p.reg ∈ ds.2)) ∧
      SameMemory s t ∧ SameWindow s t ∧ OthersSame g.uid s t

/-! ### Events -/

/-- The bytes of an access lie in memory of its stack, in no window of slices. -/
def Sys2Proof.Claims.InMemory (a : Acc) : Prop := a.slice = false ∧ a.peer = false ∧ ∀ r ∈ a.locs, ∃ sp k, r.1 = .mem sp k

/-- The words that a row of bytes gives tiles, and the bytes that tiles give (R234, R251). -/
def Sys2Proof.Claims.TileMoves (g : Group) : Prop :=
  (∀ level first n (bs : List Byte), bs.length = 1024 * n → ∀ k,
    Cells.get 0 ((g.setTiles level (tileWords first bs)).tiles level) k =
      if 256 * first ≤ k ∧ k < 256 * (first + n) then word (leNat ((bs.drop (4 * (k - 256 * first))).take 4))
      else Cells.get 0 (g.tiles level) k) ∧
  (∀ level first n i j, i < 256 * n → j < 4 → (g.tileData level first n)[4 * i + j]? =
    (leBytes 4 (Cells.get 0 (g.tiles level) (256 * first + i)).toNat)[j]?)

/-- What the elements of an `mma` come to (R113 to R115, R236, R237, R247). -/
def Sys2Proof.Claims.MmaResults : Prop :=
  (∀ (x : MmaIn) old i j, i < x.d.m → j < x.d.n →
    (256 * (x.d.base + i / 16 * (x.d.n / 16) + j / 16) + 16 * (i % 16) + j % 16,
      x.element i j (Cells.get 0 old (256 * (x.d.base + i / 16 * (x.d.n / 16) + j / 16) + 16 * (i % 16) + j % 16))) ∈ x.result old) ∧
  (∀ (x : MmaIn) n, let w := codeBits (x.d.code false)
    let e := (x.d.posA * 256 / w + x.d.off false + x.d.stride false * n) % (x.a.len * 256 / w)
    let at_ := fun k => (Mem.byte x.a.bytes k).toNat
    x.aElem n = if w = 4 then at_ (e / 2) / 16 ^ (e % 2) % 16 else if w = 8 then at_ e else at_ (2 * e) + 256 * at_ (2 * e + 1)) ∧
  (∀ (x : MmaIn) i j s, let a := fun n => ((codeFmt (x.d.code false)).num (x.aElem n)).signedBy (x.d.neg false)
    let b := fun n => ((codeFmt (x.d.code true)).num (x.bElem n)).signedBy (x.d.neg true)
    x.d.smode false ≠ 2 →
    (x.d.sparse = false → x.sum i j s = Machine.Num.sum false ((List.range 16).map fun u =>
      Machine.Num.mul (a ((s * x.d.m + i) * 16 + u)) (b ((s * x.d.n + j) * 16 + u)))) ∧
    (x.d.sparse = true → let k := fun v => x.mElem (4 * (s * x.d.m + i) + v / 2)
      let y := Machine.Num.sum false ((List.range 8).map fun v => Machine.Num.mul (a ((s * x.d.m + i) * 8 + v))
        (b ((s * x.d.n + j) * 16 + 4 * (v / 2) + (if v % 2 = 0 then k v % 4 else k v / 4))))
      x.sum i j s = if y.isZero true then (match y with | .fin _ m e => .fin false m e | z => z) else y)) ∧
  (∀ (x : MmaIn) i j (old : Word), x.d.int = false → x.d.smode false = 0 → ∃ acc : Nat → Nat,
    x.element i j old = word (acc x.d.steps) ∧ (x.d.fresh = false → acc 0 = old.toNat) ∧
    (x.d.fresh = true → acc 1 = fp32.pack 0 (x.sum i j 0)) ∧
    ∀ s, s < x.d.steps → 0 < s ∨ x.d.fresh = false →
      (fp32.isNan (acc s) = true → acc (s + 1) = acc s) ∧
      (fp32.isNan (acc s) = false → acc (s + 1) = fp32.pack 0 (Machine.Num.sum false [fp32.num (acc s), x.sum i j s]))) ∧
  (∀ (x : MmaIn) i j (old : Word), x.d.int = true → x.d.sparse = false →
    let a := fun n => (if x.d.neg false then -1 else 1) * signed 8 (x.aElem n)
    let b := fun n => (if x.d.neg true then -1 else 1) * signed 8 (x.bElem n)
    x.element i j old = BitVec.ofInt 32 ((if x.d.fresh then 0 else (old.toNat : Int)) +
      ((List.range x.d.steps).map fun s => ((List.range 16).map fun u =>
        a ((s * x.d.m + i) * 16 + u) * b ((s * x.d.n + j) * 16 + u)).sum).sum))

/-- Matrix operations whose turn in tile order it is are performed whole, and their flag falls (R113 to R115, R234, R236, R237, R244,
R247, R248, R251 to R258): an `mma` writes its tiles, or spoils them and owes UNCORRECTABLE; `mzero` writes zeros; `mtld` and `mtst` move
their rows; `vaccr` and `vaccw` move a tile; `vfeed` fills the segment; `mqt` stores the elements and then the scales. What an `mma` without
scales writes: the K-steps in order, the exact sum of the sixteen products of each added with one rounding, or, of INT8, every product
added modulo 2^32. Choices of the model: an operation behind a transfer that waits does not take its array's turn (log 48), a sparse sum whose products are all -0 is +0 (log 51), the tiles of the
partner of pair width (log 49), operands read at completion (log 50), an `mtst` or `mqt` of uncorrectable data stores nothing (log 63), the
scales of an `mqt` over its elements where they overlap (log 132), both halves of pair width spoiled (log 133), a `vaccr` of an
uncorrectable tile writes nothing (log 134). -/
def Obligations.MatrixCompletions : Prop :=
  MmaResults ∧ (∀ g : Group, TileMoves g) ∧ ∀ (s : State) u op g o, Pending s u op g o →
    (∀ d, o.work = .mma d →
      (s.tileTurn g o = false → exec (.mmaComplete u op) s = .next s) ∧
      (s.tileTurn g o = true → d.pair = none → s.mmaBad g g o d = false →
        exec (.mmaComplete u op) s = .next (((s.modGroup g.uid fun x =>
          x.setTiles o.level ((s.mmaIn g g d).result (g.tiles o.level))).healTiles g.uid o.level d.base d.count).retireOp g.uid o
            none)) ∧
      (s.tileTurn g o = true → d.pair = none → s.mmaBad g g o d = true →
        exec (.mmaComplete u op) s = .next (((s.modGroup g.uid fun x =>
          x.setTiles o.level d.spoiled).healTiles g.uid o.level d.base d.count).retireOp g.uid o
            (some (matrixFault o .uncorrectable 0 0)))) ∧
      (∀ y, s.tileTurn g o = true → d.pair.bind s.group? = some y →
        let bad := s.mmaBad g g o d || s.mmaBad g y o d
        exec (.mmaComplete u op) s = .next (((s.mmaHalf g g o d bad).mmaHalf g y o d bad).retireOp g.uid o
          (if bad = true then some (matrixFault o .uncorrectable 0 0) else none)))) ∧
    (s.tileTurn g o = true → s.transferStuck g o = false → s.transferAway o = false →
      (∀ first n, o.work = .mzero first n →
        exec (.matrixTransferComplete u op) s = .next
          (((s.setGroup (g.setTiles o.level ((upFrom (256 * first) (256 * n)).map fun k => (k, 0)))).healTiles u o.level first
            n).retireOp u o none)) ∧
      (∀ first n a, o.work = .mtld first n a →
        (a.locs ≠ [] ∨ a.fault.isSome = true →
          exec (.matrixTransferComplete u op) s = .next (s.transfer g o (.load 4 false) first n a)) ∧
        (a.locs = [] → a.fault = none →
          exec (.matrixTransferComplete u op) s = .next (s.findTransfer g o .read a n fun x => .mtld first n x)) ∧
        (a.locs ≠ [] → a.fault = none → InMemory a →
          (s.badRuns g a.locs = false → exec (.matrixTransferComplete u op) s = .next (((s.modGroup u fun x =>
            x.setTiles o.level (tileWords first (s.readRuns g a.locs))).healTiles u o.level first n).retireOp u o none)) ∧
          (s.badRuns g a.locs = true →
            exec (.matrixTransferComplete u op) s = .next (s.retireOp u o (some (matrixFault o .uncorrectable 0 a.va)))))) ∧
      (∀ first n a, o.work = .mtst first n a →
        (a.locs ≠ [] ∨ a.fault.isSome = true →
          exec (.matrixTransferComplete u op) s = .next (s.transfer g o .store first n a)) ∧
        (a.locs = [] → a.fault = none →
          exec (.matrixTransferComplete u op) s = .next (s.findTransfer g o .write a n fun x => .mtst first n x)) ∧
        (a.locs ≠ [] → a.fault = none → InMemory a →
          (s.tilesBad g o.level first n = false → exec (.matrixTransferComplete u op) s =
            .next ((s.writeRuns u a.locs (g.tileData o.level first n)).retireOp u o none)) ∧
          (s.tilesBad g o.level first n = true →
            exec (.matrixTransferComplete u op) s = .next (s.retireOp u o (some (matrixFault o .uncorrectable 0 a.va)))))) ∧
      (∀ t reg mask, o.work = .vaccr t reg mask →
        (s.tilesBad g o.level t 1 = false → exec (.matrixTransferComplete u op) s =
          .next ((s.setGroup (g.landTile o.level t reg mask)).retireOp u o none)) ∧
        (s.tilesBad g o.level t 1 = true → exec (.matrixTransferComplete u op) s =
          .next (s.retireOp u o (some (matrixFault o .uncorrectable 0 0))))) ∧
      (∀ t mask vals, o.work = .vaccw t mask vals →
        let s1 := s.setGroup (g.setTiles o.level (storeTile t mask vals))
        exec (.matrixTransferComplete u op) s =
          .next ((if mask = BitVec.allOnes 32 then s1.healTiles u o.level t 1 else s1).retireOp u o none))) ∧
    (∀ k p reg n mask strict x, o.work = .vfeed k p reg n mask strict → g.seg k = some x →
      let s1 := s.setGroup (g.setSeg k (some (x.feed p n mask fun r l => Cells.get 0 g.vreg (Group.vbase32 (reg + r) l))))
      (mask ≠ BitVec.allOnes 32 → exec (.vfeedComplete u op) s = .next (s1.retireOp u o none)) ∧
      (mask = BitVec.allOnes 32 → exec (.vfeedComplete u op) s = .next (((List.range (4 * n)).foldl (fun (t : State) i =>
        t.heal .stream (groupKey u (2 ^ 17 * k + 32 * ((p + i) % x.len))) 32) s1).retireOp u o none))) ∧
    (∀ r0 r1 r2 r3, o.work = .mqt r0 r1 r2 r3 → s.tileTurn g o = true → ∀ src ss dst ds,
      mqtRanges r0.toNat r1.toNat r2.toNat r3.toNat = [src, ss, dst, ds] →
      (s.ownBad g src.1 src.2 = false → s.ownBad g ss.1 ss.2 = false →
        exec (.mqtComplete u op) s = .next (((s.writeMem .core (s.ownKey g dst.1)
          (mqtResult r0.toNat (s.ownBytes g src.1 src.2) (s.ownBytes g ss.1 ss.2)).1).writeMem .core (s.ownKey g ds.1)
          (mqtResult r0.toNat (s.ownBytes g src.1 src.2) (s.ownBytes g ss.1 ss.2)).2).retireOp u o none)) ∧
      (s.ownBad g src.1 src.2 = true ∨ s.ownBad g ss.1 ss.2 = true → exec (.mqtComplete u op) s =
        .next (s.retireOp u o (some (matrixFault o .uncorrectable 0 0))))) 

/-- Commands of the base tier and of the draw unit (R270, R275, R279, R282 to R291): the oldest of its path is performed and
returns; samples are stored in lane order once the token is held; a forwarded copy lands on the other stack, or is dropped and
counted there, one whose head byte cannot be read too (log 146); the token draws of a stack are performed in issue order, one whose logits
are read writes the token, and a round with nothing to draw writes 0. What these compute
(`EngineResults`): a record is sealed and takes the slot at the head of its tile; a gather delivers the record of its age, or zeros;
rays, probes and textures have the results of their rules; a draw without a candidate gives all ones; a round launches its waves.
Choices of the model: a forwarded copy that does not fit is counted at its destination (log 54), a command is performed whole in one
step (log 94), the child packet is read at the launch (log 61), landings on an object with reserved bits and the order of a gather's
faults (logs 135 and 136), a gather delivers the lanes before the first that its core cannot take and stops there (log 56), the addresses
that a gather's faults report (log 147), and a lane of `vsamp` whose head byte cannot be read writes nothing (R411). -/
def Obligations.EngineCompletions : Prop :=
  (∀ (s : State) u op g o, Pending s u op g o → g.turnOf o = true → o.wait = none →
    (∀ vw rs held, o.work = .vsamp vw rs held → (held = true → s.holdsToken g = true) →
      exec (.engineCommandComplete u op) s = .next (s.performSamp g o vw rs)) ∧
    (∀ vw rs held, o.work = .vsamp vw rs held → held = true → s.holdsToken g = false →
      exec (.engineCommandComplete u op) s = .next s) ∧
    (∀ root dst rs, o.work = .vtrace root dst rs → exec (.engineCommandComplete u op) s =
      .next (s.finishLanes g o dst (rs.map fun r => (r.1, (s.seenBy o).traceLane (g.reader o) root r.2)))) ∧
    (∀ bins tris dst rs, o.work = .vprobe bins tris dst rs → exec (.engineCommandComplete u op) s =
      .next (s.finishLanes g o dst (rs.map fun r => (r.1, (s.seenBy o).probeLane (g.reader o) bins tris r.2)))) ∧
    (∀ desc dst rs, o.work = .vtex desc dst rs → exec (.engineCommandComplete u op) s =
      .next (s.finishLanes g o dst (rs.map fun r => (r.1, (s.seenBy o).texRequest (g.reader o) desc r.2)))) ∧
    (∀ accs, o.work = .vrowpk accs → exec (.engineCommandComplete u op) s = .next (s.findPixels g o accs)) ∧
    (∀ vw obj mask srcs dsts part, o.work = .vsgat vw obj mask srcs dsts part →
      exec (.vsgatDelivery u op) s = .next (s.performGather g o vw obj mask srcs dsts part))) ∧
  (∀ (s : State) die f, s.forwards.find? (fun x => x.die == die) = some f → (s.die die).retrain = false →
    let s1 : State := ({ s with forwards := s.forwards.erase f } : State).linkQuiet
    (∀ t, (viewOf f.view).tile (word (leNat f.record)) = some t → s1.viewOut die f.part (viewOf f.view) = false →
      s1.headBad die f.part (viewOf f.view) t = false →
      exec (.vsampForward die) s = .next (s1.pushRecord die f.part (viewOf f.view) t (leNat f.record))) ∧
    (∀ t, (viewOf f.view).tile (word (leNat f.record)) = some t →
      s1.viewOut die f.part (viewOf f.view) = true ∨ s1.headBad die f.part (viewOf f.view) t = true →
      exec (.vsampForward die) s = .next (s1.duCount die (0x100 + 4 * f.part))) ∧
    ((viewOf f.view).tile (word (leNat f.record)) = none →
      exec (.vsampForward die) s = .next (s1.duCount die (0x100 + 4 * f.part)))) ∧
  (∀ (s : State) u op g o dst n desc key, Pending s u op g o → o.work = .ddraw dst n desc key →
    (∃ x ∈ s.groups, x.die = g.die ∧ ∃ y ∈ x.ops, y.work.isTokenDraw = true ∧ y.seq < o.seq) →
    exec (.ddrawComplete u op) s = .next s) ∧
  (∀ (s : State) u op g o dst n desc key bs used, Pending s u op g o → o.work = .ddraw dst n desc key → o.wait = none →
    (∀ x ∈ s.groups, x.die = g.die → ∀ y ∈ x.ops, y.work.isTokenDraw = true → o.seq ≤ y.seq) →
    s.drawRead g o (bits (leNat desc) 47 0) (4 * n) = .ok bs used →
    exec (.ddrawComplete u op) s = .next ((s.engCrossed g (drawUnit g) used).setGroup ((g.landU o.level dst (drawToken desc key
      ((List.range n).map fun i => leNat ((bs.drop (4 * i)).take 4)))).retire o))) ∧
  (∀ (s : State) u op g o dst desc key bs used, Pending s u op g o → o.work = .dpos dst desc key → o.wait = none →
    s.drawRead g o (roundOf desc).map (2 * (roundOf desc).w * (roundOf desc).h) = .ok bs used →
    let s1 := s.engCrossed g (drawUnit g) used
    let ws := (List.range ((roundOf desc).w * (roundOf desc).h)).map fun i => leNat ((bs.drop (2 * i)).take 2)
    ((roundOf desc).n = 0 ∨ ws.sum = 0 →
      exec (.dposRoundComplete u op) s = .next (s1.setGroup ((g.landU o.level dst 0).retire o))) ∧
    ((roundOf desc).n ≠ 0 → ws.sum ≠ 0 →
      exec (.dposRoundComplete u op) s = .next (s1.launchRound g o dst (roundOf desc) key ws))) ∧
  (∀ (s : State) g x used, ∃ d0 d1, s.engCrossed g x used = { s with die0 := { s.die0 with replays := d0 }, die1 := { s.die1 with replays := d1 } }) ∧
  EngineResults

/-- What arrives (R49, R61, R65, R138, R213, R321, R336, R345, R408, R410, R411): slice accesses at their homes with the other
accesses of their instruction on the stack, and peer accesses at theirs, in the order of R68, but those that wait behind lanes held for the
token; peer ones while no link retrains; accesses, transfers and the read of a `waitm` that the mesh fails to carry take UNCORRECTABLE, a copy request stops with it, and no byte of
a code line that it fails to carry can be read; a peer access whose answer is lost before its time is over has no effect then, or, a store or atomic, has been performed all the
same, and one whose time is over ends with REMOTE_TIMEOUT; the leaf of a page walk reaches the units that asked, a code line the cores that
asked, and its uncorrectable bytes no stream; a copy request starts, moves on by a chunk and ends with a status, and leaves an object that
refuses its landings as it is. Choices of the model: peer accesses wait while a link retrains (log 62), lost answers are inputs, and which of
the two outcomes of R345 they have (log 108), so are failures of the mesh (log 118), a fill answers every core of its queue (log 19), a fetch of a bad line takes the line away
(log 125), and where the status byte of a copy's slot lies (log 64). -/
def Obligations.Arrivals : Prop :=
  (∀ (s : State) u op g o0 o k d accs, Pending s u op g o0 → s.releaseHeld g o0 = o → o.work = .mem k d accs → g.inOrder o k = true →
    ((∃ a ∈ accs, a.slice = true ∧ a.performed = false ∧ a.held = false) →
      exec (.sliceAccessArrival u op) s = .next (s.performSel u o fun a => !a.peer && !g.blocked o a)) ∧
    (o.wait = none → (∃ a ∈ accs, a.onMesh = true) → g.op? (failedOper op) = none → op < 2 ^ 32 →
      exec (.sliceAccessArrival u (failedOper op)) s = .next (s.setGroup (g.setOp { o with
      work := .mem k d (accs.map fun a => if a.onMesh then { a with performed := true, fault := some .uncorrectable } else a) }))) ∧
    ((∃ a ∈ accs, a.peer = true ∧ a.performed = false ∧ a.held = false ∧ a.lost = false) →
      (s.linkUp = true → exec (.peerAccessArrival u op) s =
        .next ((s.linkQuiet.performSel u { o with since := none } fun a => a.peer && !g.blocked o a).refusePeers u op)) ∧
      (s.linkUp = false → exec (.peerAccessArrival u op) s = .next s))) ∧
  (∀ (s : State) u op g o, Pending s u op g o → g.op? (failedOper op) = none → op < 2 ^ 32 →
    (∀ first n a, s.transferSent g o a = true →
      (o.work = .mtld first n a → exec (.sliceAccessArrival u (failedOper op)) s =
        .next (s.setGroup (g.setOp { o with work := .mtld first n { a with fault := some .uncorrectable } }))) ∧
      (o.work = .mtst first n a → exec (.sliceAccessArrival u (failedOper op)) s =
        .next (s.setGroup (g.setOp { o with work := .mtst first n { a with fault := some .uncorrectable } })))) ∧
    (∀ root dst rs, o.work = .vtrace root dst rs → o.wait = none → g.turnOf o = true →
      exec (.sliceAccessArrival u (failedOper op)) s = .next (s.retireOp u o (some (unitFault o .uncorrectable 0 o.mask 0))))) ∧
  (∀ (s : State) u id c, id < 2 ^ 33 → (∀ g, s.group? u = some g → ∀ o ∈ g.ops, o.id < 2 ^ 32) →
    s.copies.find? (fun c => c.owner == u && c.id == id) = some c → s.copyOnMesh c = true →
    exec (.sliceAccessArrival u (failedCopy id)) s = .next (s.modCopy id fun x => { x with ending := some (0x13, true) })) ∧
  (∀ (s : State) u g, s.group? u = some g → (∀ o ∈ g.ops, o.id < g.nextOp) → g.nextOp < 2 ^ 32 → g.whyS = some 6 →
    exec (.sliceAccessArrival u (failedOper g.nextOp)) s = .next (s.setGroup { g with waitMesh := true })) ∧
  (∀ (s : State) u g lane f, s.group? u = some g → (∀ o ∈ g.ops, o.id < 2 ^ 32) →
    (s.die g.die).fills.find? (fun x => x.lane == lane && x.part == s.partOf g && x.cores.contains g.core) = some f →
    ∃ (t : State) (l : CodeLine), exec (.sliceAccessArrival u (failedFetch lane)) s = .next (t.cacheLine l) ∧ SameMemory s t ∧
      l.die = g.die ∧ l.core = g.core ∧ l.lane = lane ∧ l.part = f.part ∧ l.va = f.va ∧
      ∀ i, i ∈ l.bad ↔ i < (f.locs.map (·.2)).sum) ∧
  (∀ (s : State) u op g o k d accs, Pending s u op g o → o.work = .mem k d accs → g.inOrder o k = true →
    (∃ a ∈ accs, a.awaits = true ∧ g.blocked o a = false) → ∃ t g' o', exec (.remoteTimeoutExpiry u op false) s = .next t ∧ Pending t u op g' o' ∧
      OthersSame u s t ∧
      (s.expired g.die o.since = true → o' = { o with
        since := none
        work := .mem k d (accs.map fun a =>
          if a.awaits && !g.blocked o a then { a with performed := true, lost := false, fault := some .remoteTimeout, got := [] } else a) }) ∧
      (s.expired g.die o.since = false → SameMemory s t ∧ SameWindow s t ∧ o' = { o with
        since := some (o.since.getD s.clk)
        work := .mem k d (accs.map fun a => if a.awaits && !g.blocked o a then { a with lost := true } else a) })) ∧
  (∀ (s : State) u op g o k d accs, Pending s u op g o → o.work = .mem k d accs → g.inOrder o k = true → k.writes = true →
    (∃ a ∈ accs, a.awaits = true ∧ g.blocked o a = false) → s.expired g.die o.since = false →
    ∃ t g' o' accs', exec (.remoteTimeoutExpiry u op true) s = .next t ∧ Pending t u op g' o' ∧ o'.work = .mem k d accs' ∧
      SameMemory ((s.performSel u o fun a => a.peer && !g.blocked o a).refusePeers u op) t ∧ accs'.length = accs.length ∧
      ∀ (i : Nat) (a a' : Acc), accs[i]? = some a → accs'[i]? = some a' → a.awaits = true → g.blocked o a = false →
        a'.lost = true ∧ (a.lost = false → a'.performed = true)) ∧
  (∀ (s : State) die w rest, (s.die die).walks = w :: rest →
    let s1 := s.setDie die { s.die die with walks := rest }
    ∀ p, s1.part? die w.part = some p → ∀ pte base size, walk s1 p (w.page * 4096) = .leaf pte base size →
      exec (.pageWalk die) s =
        .next (w.askers.foldl (fun t a => t.fillFor die w.part pte base size a) (s1.fillUpper p (w.page * 4096)))) ∧
  (∀ (s : State) die f rest, (s.die die).fills = f :: rest →
    exec (.codeFetchFill die) s = .next (f.cores.foldl (fun (t : State) c => t.cacheLine
      { die := die, core := c, lane := f.lane, part := f.part, va := f.va
        bytes := f.locs.flatMap fun r => s.readMem .scene r.1 r.2
        bad := if s.poison = [] then [] else s.badPlaces 0 f.locs }) (s.setDie die { s.die die with fills := rest }))) ∧
  (∀ (s : State) (g : Group) lane base size off n l, off + n ≤ size →
    s.line? g.die g.core (s.partOf g) lane (base + off / lineBytes lane * lineBytes lane) = some l →
    ((∃ i ∈ l.bad, off % lineBytes lane ≤ i ∧ i < off % lineBytes lane + n) →
      s.fetch g lane base size off n = .bad { s with lines := s.lines.erase l }) ∧
    ((∀ i ∈ l.bad, i < off % lineBytes lane ∨ off % lineBytes lane + n ≤ i) →
      s.fetch g lane base size off n = .word (leNat ((l.bytes.drop (off % lineBytes lane)).take n)))) ∧
  (∀ (s : State) die core c,
    s.copies.find? (fun c => c.die == die && c.core == core && c.st == .queued && s.copyMayStart c) = some c →
    exec (.copyRequestStart die core) s =
      .next (s.modCopy c.id fun x => { x with st := .started, ending := s.copyRefused c })) ∧
  (∀ (s : State) id c s1 c1, s.copy? id = some c → c.moves = true → c.cut = false → s.objectBad c = false →
    s.copyMoves c c.chunkEnd chunkBytes = (s1, c1, none) →
    exec (.copyChunkLanding id) s = .next ((s1.credit c1).1.modCopy id fun _ => (s1.credit c1).2)) ∧
  (∀ (s : State) id c, s.copy? id = some c →
    (∀ status mark, c.ending = some (status, mark) → exec (.copyRequestEnd id) s = .next (s.endCopy c status mark)) ∧
    (c.ending = none → c.st = .started → c.cancelled = true → exec (.copyRequestEnd id) s = .next (s.endCopy c 0xFE true)) ∧
    (c.ending = none → c.st = .started → c.cancelled = false → c.total ≤ c.done →
      exec (.copyRequestEnd id) s = .next (s.endCopy c 0xFF false))) ∧
  (∀ (s : State) c status mark, status ≠ 0xFF →
    (let s1 := s.writeMem .core (s.ownKey (s.copyGroup c) (c.slotVa + 27)) [BitVec.ofNat 8 status]
     c.slotVa + 32 ≤ (s.ownShare (s.copyGroup c)).2 → s1.objectBad c = true →
      s.endCopy c status mark = { s1 with copies := s.copies.filter fun x => x.id != c.id }) ∧
    ((s.ownShare (s.copyGroup c)).2 < c.slotVa + 32 → s.objectBad c = true →
      s.endCopy c status mark = { s with copies := s.copies.filter fun x => x.id != c.id }))

/-- The dispatcher's events (R31, R36, R309, R310, R312, R318, R319, R326, R327, R329, R330, R363, R364, R368, R370 to R372, R375,
R384, R412). A waiting trap whose code the handler takes is entered once the paths stand at boundaries, and a PREEMPT once the group
has drained; a breakpoint of route 1 stops its stream with a kind-1 event, one of route 0 takes BREAKPOINT. A block is parked whose group
joins a child that it helps, for that child's unit where it is of class 0 or 1 (log 152). A pre-emption stops the block and puts its groups before PREEMPT, or waits where the save pool has no room; a save or restore over 2 ms ends the context. A unit is
placed, and the next of the stack at least 4 clk later; expired requests are withdrawn or become pre-emptions; a finished block and a
finished grid retire; a block freezes, settles and moves; the steps of a migration are taken. Choices of the model: a frozen block tries
again each clk, and stays where there is no place (log 87); an event given when its condition does not hold, a trap entry, a pre-emption of
a reason above 2, a time-out, a placement, an expiry before its time, leaves the state as it is (log 92); a move counts for the columns that the block leaves and for those that it
reaches (log 120); the steps of a migration are given from outside (log 90). -/
def Obligations.DispatcherEvents : Prop :=
  (∀ (s : State) u g t rest, s.group? u = some g → g.mode = .kernel → g.atBoundary = true → g.ready = t :: rest →
    t.code ≠ .preempt → (s.gridOf g).vector.handles t.code = true → (∀ n, (g.stop n).step = false) →
    ∃ g' : Group, exec (.trapEntry u) s = .next (s.setGroup g') ∧ g'.uid = u ∧ g'.mode = .handler ∧ g'.entry = .trap ∧
      g'.k.pc = t.resume ∧ FreshHandler g.h g'.h (s.gridOf g).vector.entry ∧
      ∀ i, i < 8 → Cells.get 0 g'.sureg (24 + i) = frame t false i) ∧
  (∀ (s : State) u g, s.group? u = some g → g.mode ≠ .kernel ∨ g.atBoundary = false ∨ (g.ready = [] ∧ g.preempt = none) →
    exec (.trapEntry u) s = .next s) ∧
  (∀ (s : State) u g info base, s.group? u = some g → g.mode = .kernel → g.atBoundary = true → g.ready = [] →
    g.preempt = some (info, base) → g.ops = [] → g.deferred = [] → s.partnerBusy g = false →
    (∀ f ∈ s.forwards, f.group ≠ u) → (∀ c ∈ s.copies, c.owner = u → c.st ≠ .started) →
    ∃ t g', exec (.trapEntry u) s = .next t ∧ t.group? u = some g' ∧ g'.mode = .handler ∧ g'.entry = .save ∧
      g'.preempt = none ∧ FreshHandler g.h g'.h (s.gridOf g).vector.entry ∧
      (∀ i, i < 8 → Cells.get 0 g'.sureg (24 + i) = frame { code := .preempt, delivery := .asynchronous, slot := 3, pc := g.k.pc, info := info, address := base, resume := g.k.pc } false i) ∧
      ∀ c ∈ t.copies, c.owner ≠ u) ∧
  (∀ (s : State) u slot g k, s.group? u = some g → s.breakpoint? g slot = some k →
    bitAt (s.regN g.die (dbBpCtl (s.partOf g) k)) 30 = true →
    exec (.breakpointMatch u slot) s =
      .next ((s.event g slot 1 (word (0x10000 + k)) 0 0).stopHere g slot 1 ((g.stop slot).step && (g.stop slot).trapEach))) ∧
  (∀ (s : State) (g : Group) slot kind step, slot = 0 ∨ slot = 1 ∨ slot = 3 → (g.holdPath slot).dueEvents slot = [] →
    ∃ g' : Group, s.stopHere g slot kind step = s.setGroup g' ∧ g'.uid = g.uid ∧ (g'.stop slot).stopped = true ∧
      (g'.stop slot).step = step ∧ (g'.stop slot).kind = kind ∧ (g'.stop slot).events = (g.stop slot).events ∧
      (slot = 3 → g'.k = g.k)) ∧
  (∀ (s : State) u g k c, s.group? u = some g → s.cur = some c → s.breakpoint? g 3 = some k →
    bitAt (s.regN g.die (dbBpCtl (s.partOf g) k)) 30 = false →
    exec (.breakpointMatch u 3) s = .next (s.raise g 3 { code := .breakpoint, info := word (0x10000 + k), pc := g.k.pc
                                                         resume := g.k.pc, slot := 3, word := word c.word })) ∧
  (∀ (s : State) u g k c slot, slot ≠ 3 → s.group? u = some g → s.cur = some c → s.breakpoint? g slot = some k →
    bitAt (s.regN g.die (dbBpCtl (s.partOf g) k)) 30 = false →
    let p := g.k.path (slot == 1)
    exec (.breakpointMatch u slot) s = .next (s.raise g slot
      { code := .breakpoint, lane := true, info := word (0x10000 + k), pc := g.k.pc, resume := g.k.pc
        slot := pathIndex p (slot == 1), laneIndex := p.pc, mask := p.active, word := word (c.word / 2 ^ 64) })) ∧
  (∀ (s : State) b reason x t, s.block? b = some x → s.preempt b reason = some t → reason ≤ 2 →
    exec (.preemption b reason) s =
      .next (t.modBlock b fun y => { y with forUnit := x.wanted.bind (·.2), wanted := none }) ∧
    ∃ base, (∀ y ∈ t.blocks, y.uid = b → y.st = .stopping ∧ y.save = base ∧ y.reason = reason) ∧
      ∀ g ∈ t.groups, g.block = b → g.exited = false → g.preempt = some (word reason, base)) ∧
  (∀ (s : State) b reason x, s.block? b = some x → x.st = .resident ∨ x.st = .frozen ∨ x.st = .restoring →
    (∃ g ∈ s.groupsOf b, g.exited = false) → s.preempt b reason = none → reason ≤ 2 → exec (.preemption b reason) s =
      .next ((s.withdraw b).modBlock b fun y => { y with wanted := some (reason, x.wanted.bind (·.2)) })) ∧
  (∀ (s : State) b reason, 2 < reason → exec (.preemption b reason) s = .next s) ∧
  (∀ (s : State) b x k, s.block? b = some x → s.grid? x.grid = some k →
    (x.since + saveLimit ≤ s.clk → x.st = .saving → exec (.saveTimeout b) s = .next (s.terminateGrid k 3 0xFE)) ∧
    (x.since + saveLimit ≤ s.clk → x.st = .restoring → exec (.restoreTimeout b) s = .next (s.terminateGrid k 3 0xFC)) ∧
    (s.clk < x.since + saveLimit → exec (.saveTimeout b) s = .next s ∧ exec (.restoreTimeout b) s = .next s)) ∧
  (∀ (s : State) die, s.clk < (s.die die).placeAt → exec (.unitPlacement die) s = .next s) ∧
  (∀ (s : State) die k w rest p t, (s.die die).placeAt ≤ s.clk → (s.die die).power.st = 0 → s.unitsOf die = (k, w) :: rest →
    s.heldBlock w = none → s.part? k.die k.part = some p →
    (s.unreserve (k.uid, w.first)).tryUnit p k w (s.coreFree k) = .placed t →
    exec (.unitPlacement die) s =
      .next ((t.setDie k.die { t.die k.die with placeAt := t.clk + 4 }).unitPlaced (k.uid, w.first))) ∧
  (∀ (s : State) b x r k, s.block? b = some x → x.req = some r → s.grid? x.grid = some k →
    (s.clk < r.posted + requestLimit → exec (.switchRequestExpiry b) s = .next s) ∧
    (r.posted + requestLimit ≤ s.clk → r.upward = true → exec (.switchRequestExpiry b) s = .next (s.withdraw b)) ∧
    (r.posted + requestLimit ≤ s.clk → r.upward = false → k.cls = 1 → exec (.switchRequestExpiry b) s =
      .next ((s.withdraw b).modGrid r.forGrid fun y => { y with spent := r.forBlock :: y.spent })) ∧
    (r.posted + requestLimit ≤ s.clk → r.upward = false → k.cls ≠ 1 →
      exec (.switchRequestExpiry b) s = .next (s.preemptFor x r))) ∧
  (∀ (s : State) die k x b r, s.grid? k = some x → x.die = die → s.slackLow x = true → s.gridWaits x = true →
    (s.blocks.filter fun b => b.req.any fun r => !r.upward && r.forGrid == k) = [b] → b.req = some r →
    exec (.slackBelowMargin die k) s =
      .next (if ((s.grid? b.grid).getD {}).cls < 2 then s.withdraw b.uid else s.preemptFor b r)) ∧
  (∀ (s : State) b x k n a, s.block? b = some x → s.grid? x.grid = some k → x.st = .resident → x.req = none → x.variant ≠ 0 →
    s.urgentWaits x.die k.part = false → s.blockHoldsToken x = false →
    ((List.range x.variant).findSome? fun n => (s.convertAllocs x ((k.variants[n]?).getD {})).head?.map fun a => (n, a)) =
      some (n, a) →
    exec (.upwardSwitchRequest b) s =
      .next (s.modBlock b fun y => { y with req := some { target := n, posted := s.clk, upward := true, alloc := a } })) ∧
  (∀ (s : State) b x k t, s.block? b = some x → x.st = .resident → s.parkFor x = some k → s.preempt b 2 = some t →
    exec (.blockPark b) s = .next (t.modBlock b fun y => { y with parked := true, forUnit := s.parkUnit k })) ∧
  (∀ (s : State) x k, s.parkFor x = some k → (∃ g ∈ s.groupsOf x.uid, g.mode = .kernel ∧ g.inJoin = true ∧ k ∈ s.children g) ∧
    (2 ≤ k.cls → s.parkUnit k = none) ∧ ∃ w, s.nextUnit k = some w ∧ waitedFrom k w + 32000 ≤ s.clk ∧
      (k.cls < 2 → s.parkUnit k = some (k.uid, w.first))) ∧
  (∀ (s : State) b x k, s.block? b = some x → s.grid? x.grid = some k → x.st = .finished → k.strict = false → k.record = 0 →
    k.nbhd = 0 →
    exec (.blockRetirement b) s =
      (let t := (s.modBlock b fun y => { y with st := .retired }).modGrid k.uid fun y => { y with retired := y.retired + 1 }
       .next { t with pool := t.pool.filter fun a => a.block != b })) ∧
  (∀ (s : State) k x, s.grid? k = some x → x.st = .active → x.retired = x.blocks → s.childActive x = false →
    x.release = false → (∀ f ∈ s.forwards, f.grid ≠ x.uid) →
    ∃ t, exec (.gridCompletion k) s = .next t ∧ ∀ y ∈ t.grids, y.uid = k → y.st = .complete) ∧
  (∀ (s : State) b core x, s.block? b = some x → let cols := ((upFrom x.core x.span ++ upFrom core x.span).map coreCol).eraseDups
    (x.st = .resident → (s.movePlace x core).isSome = true → x.req = none → (∀ g ∈ s.groupsOf b, g.preempt = none) →
      s.moveDue x.die cols = true →
      let t := (s.modBlock b fun y => { y with st := .frozen }).noteMove x.die cols
      exec (.thermalBlockMove b core) s = .next { t with inputs := t.inputs ++ [(t.clk + 1, .thermalBlockMove b core)] }) ∧
    (x.st = .resident → s.moveDue x.die cols = false →
      exec (.thermalBlockMove b core) s = .next s) ∧
    (x.st = .frozen → s.settled x = false → exec (.thermalBlockMove b core) s =
      .next { s with inputs := s.inputs ++ [(s.clk + 1, .thermalBlockMove b core)] }) ∧
    (∀ k a t, x.st = .frozen → s.settled x = true → s.movePlace x core = some (k, a) → s.moveTo k x a = some t →
      exec (.thermalBlockMove b core) s = .next t)) ∧
  (∀ (s : State) p,
    (let s1 := s.modPart p fun x => { x with migrating := true }
     exec (.sessionMigration p .preempt) s =
      .next ((s1.blocks.filter fun b => ((s1.grid? b.grid).getD {}).part == p).foldl (fun t b => t.wantPreempt b.uid 1 none) s1)) ∧
    exec (.sessionMigration p .save) s = .next (s.migrationSave p) ∧
    exec (.sessionMigration p .bands) s = .next ((s.bands.filter fun b => b.part == p && b.data.isNone && !b.dead).foldl
      (fun t b => if t.bandHeld b then t.discard b else t.readBand b) s) ∧
    exec (.sessionMigration p .restore) s = .next (s.migrationRestore p) ∧
    (s.vacated p = true → exec (.sessionMigration p .restoreOther) s = .next ((s.migrationRestore p).crossOver p)) ∧
    (s.vacated p = false → exec (.sessionMigration p .restoreOther) s = .next s))

/-- The packet core (R86, R355, R357 to R359, R378, R417): in a step of a stack in D0 each queue that is open, has a packet and none in
progress takes one, and those in progress are then handled, SIGNAL before WAIT, DISPATCH, NOP and the reserved types, by queue; a
stack below D0 takes none. SIGNAL adds 1, WAIT takes 1 and stays while its semaphore is 0, NOP does nothing, each reported with status
0; in each a reserved bit is rejected with reason 1, and then a misaligned completion address with 10; a reserved type is rejected with
1. A dispatch with fewer than 16 grids in progress is accepted, rejected with its reason, or waits for a page, as its checks say.
A packet that waits for a page or for earlier grids does nothing. A coalescing timer that expires with reports pending sends one
interrupt; its event before that time leaves the state as it is, the model's choice (log 92). -/
def Obligations.PacketEvents : Prop :=
  (∀ (s : State) die, (s.die die).power.st = 0 → ∃ t es, exec (.packetCoreStep die) s = .next t ∧
    t = { s.mapPackets die fun l => l ++ s.newPackets die with agenda := es ++ s.agenda } ∧
    es = (sortRank (fun p => [(packetEvent die p).1, p.queue]) (t.die die).packets).map (fun p => .event (packetEvent die p).2) ∧
    ∀ p ∈ (t.die die).packets, .event (packetEvent die p).2 ∈ es) ∧
  (∀ (s : State) die, (s.die die).power.st ≠ 0 → exec (.packetCoreStep die) s = .next s) ∧
  (∀ (s : State) die, ((s.newPackets die).map (·.queue)).Nodup ∧ ∀ p ∈ s.newPackets die, p.queue < 32 ∧
    s.queueState die p.queue = 1 ∧ s.regN die (pkQ p.queue 0xC) ≠ s.regN die (pkQ p.queue 0x10) ∧ s.packet? die p.queue = none ∧
    p.bytes = s.packetBytes die p.queue) ∧
  (∀ (s : State) die q p, PacketReady s die q p → leNat (p.bytes.take 1) = 1 → s.dispatched die q < 16 →
    let asked := s.checkDispatch { die := die, part := s.queuePart die q, queue := q } p.bytes
    (∀ k, asked = .ok k → exec (.dispatchPacket die q) s = .next ((s.enter k).packetDone die p)) ∧
    (∀ r, asked = .reject r → exec (.dispatchPacket die q) s = .next (s.packetReport die p 1 r)) ∧
    (∀ c v, asked = .page c v → exec (.dispatchPacket die q) s =
      .next ((s.translationRecord die (s.queuePart die q) c (dispatcherAsker 0 q 0 v) 0 false).mapPackets die fun l =>
        l.map fun x => if x.queue == q then { x with wait := some (v / 4096) } else x))) ∧
  (∀ (s : State) die q p, PacketReady s die q p → 16 ≤ s.dispatched die q → exec (.dispatchPacket die q) s = .next s) ∧
  (∀ (s : State) die q p, PacketReady s die q p →
    ∀ e ∈ [(2, .signalPacket die q), (3, .waitPacket die q), (0, .nopPacket die q)], leNat (p.bytes.take 1) = e.1 →
      (shortReserved p.bytes = true → exec e.2 s = .next (s.packetReport die p 1 1)) ∧
      (shortReserved p.bytes = false → packetCompletion p.bytes % 8 ≠ 0 → exec e.2 s = .next (s.packetReport die p 1 10))) ∧
  (∀ (s : State) die q p, PacketReady s die q p → leNat (p.bytes.take 1) = 2 → shortOk p → exec (.signalPacket die q) s =
    .next ((s.semUp (s.queuePart die q) (bits (leNat p.bytes) 37 32)).packetReport die p 0 0)) ∧
  (∀ (s : State) die q p, PacketReady s die q p → leNat (p.bytes.take 1) = 3 → shortOk p →
    (s.sem (s.queuePart die q) (bits (leNat p.bytes) 37 32) = 0 → exec (.waitPacket die q) s = .next s) ∧
    (s.sem (s.queuePart die q) (bits (leNat p.bytes) 37 32) ≠ 0 → exec (.waitPacket die q) s =
      .next ((s.semDown (s.queuePart die q) (bits (leNat p.bytes) 37 32)).packetReport die p 0 0))) ∧
  (∀ (s : State) die q p, PacketReady s die q p →
    (3 < leNat (p.bytes.take 1) → exec (.nopPacket die q) s = .next (s.packetReport die p 1 1)) ∧
    (leNat (p.bytes.take 1) = 0 → shortOk p → exec (.nopPacket die q) s = .next (s.packetReport die p 0 0))) ∧
  (∀ (s : State) die q p, s.packet? die q = some p →
    p.wait.isSome = true ∨ (packetAcquire p.bytes = true ∧ s.queueQuiet die q = false) → leNat (p.bytes.take 1) ≤ 3 →
    ∀ i ∈ [Instr.dispatchPacket die q, .signalPacket die q, .waitPacket die q, .nopPacket die q], exec i s = .next s) ∧
  (∀ (s : State) die q t, (s.coalesceOf die q).timer = some t →
    (s.clk < t → exec (.coalesceTimerExpiry die q) s = .next s) ∧
    (t ≤ s.clk → 0 < (s.coalesceOf die q).pending →
      exec (.coalesceTimerExpiry die q) s = .next ((s.queueMsi die q).setCoalesce die q {})) ∧
    (t ≤ s.clk → (s.coalesceOf die q).pending = 0 → exec (.coalesceTimerExpiry die q) s = .next (s.setCoalesce die q {})))

/-- Writes of registers that act (R6, R340, R343, R347, R349, R353, R377, R379, R407, R415, R416): the notify, configuration and
control of a queue, semaphores, interrupt control, page-fault resolution and ring, partitions, the egress lock, attestation and
its report, the debug enable; a 64-bit write acts as two 32-bit ones, the low register first, but that of TW_PDADDR the high one first; any
other size is dropped, and so is a write of a mailbox word that no application core makes (R416). Choices of the model: a notify acts in
any state and a terminate in state 0 while grids run (log 74); busy before the descriptor (log 75); PK_SEM wakes both stacks (log 77);
the order of a 64-bit write elsewhere, and other sizes dropped (log 80); a running attestation is replaced (log 83). -/
def Obligations.RegisterWriteEvents : Prop :=
  (∀ (s : State) die q (w : Word),
    let t := (s.setRegN die (pkQ q 0xC) (w.toNat % 2 ^ 17)).wake die
    let n := bits (s.regN die (pkQ q 8)) 20 16
    let count := (w.toNat % 2 ^ 17 + 2 ^ 17 - s.regN die (pkQ q 0x10)) % 2 ^ 17
    (2 ^ n < count → exec (.pkQwidxWrite die q w) s = .next (t.setQueueState die q 2 0x10)) ∧
    (count ≤ 2 ^ n → exec (.pkQwidxWrite die q w) s = .next t)) ∧
  (∀ (s : State) die q (w : Word), s.queueState die q = 0 ∨ s.queueState die q = 2 →
    (w.getLsbD 8 = false → exec (.pkQcfgWrite die q w) s =
      .next ((s.store die (pkQ q 8) 0x1F010F w).setQueueState die q 0 0)) ∧
    (∀ p, w.getLsbD 8 = true → s.part? die (w.toNat % 16) = some p → 4 ≤ bits w.toNat 20 16 → bits w.toNat 20 16 ≤ 16 →
      s.ringInQuota p die q (bits w.toNat 20 16) = true → exec (.pkQcfgWrite die q w) s =
        .next ((s.store die (pkQ q 8) 0x1F010F w).setQueueState die q 1 0))) ∧
  (∀ (s : State) die q,
    (s.queueState die q = 1 → s.inProgress die q = false →
      exec (.pkQctlStop die q) s = .next (s.setQueueState die q 2 0)) ∧
    (s.queueState die q = 1 → s.inProgress die q = true → exec (.pkQctlStop die q) s =
      .next (s.mapPackets die fun l => l.map fun p => if p.queue == q then { p with stop := true } else p)) ∧
    (s.queueState die q ≠ 1 → exec (.pkQctlStop die q) s = .next s) ∧
    (s.queueState die q = 1 ∨ s.queueState die q = 2 ∨ (s.queueState die q = 0 ∧ s.queueOpen die q = true) →
      exec (.pkQctlTerminate die q) s = .next (s.terminate die q 3 0xF8)) ∧
    (s.queueState die q = 3 ∨ (s.queueState die q = 0 ∧ s.queueOpen die q = false) →
      exec (.pkQctlTerminate die q) s = .next s) ∧
    (s.queueState die q = 2 ∨ (s.queueState die q = 3 ∧ s.queueOpen die q = false) →
      exec (.pkQctlResume die q) s = .next (s.setQueueState die q 1 0)) ∧
    (s.queueState die q = 2 → s.queueOpen die q = false → s.inProgress die q = false →
      exec (.pkQctlReset die q) s = .next (((s.mapPackets die fun l => l.map fun p =>
        if p.queue == q then { p with stale := true } else p).setReg die (pkQ q 0xC) 0).setReg die (pkQ q 0x10) 0)) ∧
    (s.queueState die q = 2 → s.queueOpen die q = false → s.inProgress die q = true → ∃ t,
      exec (.pkQctlReset die q) s = .next t ∧ t.reg die (pkQ q 0xC) = 0 ∧ t.reg die (pkQ q 0x10) = 0 ∧
      ∀ p ∈ (t.die die).packets, p.queue = q → p.stale = true) ∧
    (s.queueState die q ≠ 2 ∨ s.queueOpen die q = true → exec (.pkQctlReset die q) s = .next s)) ∧
  (∀ (s : State) p n (w : Word), exec (.pkSemWrite p n w) s = .next (((s.setReg 0 (pkSem p n) w).wake 0).wake 1)) ∧
  (∀ (s : State) die q (w : Word),
    (w.getLsbD 31 = true → exec (.icCtlWrite die q w) s = .next (s.store die (icQ q 0) 0x807FFFFF w)) ∧
    (w.getLsbD 31 = false →
      exec (.icCtlWrite die q w) s = .next ((s.store die (icQ q 0) 0x807FFFFF w).setCoalesce die q {}))) ∧
  (∀ (s : State) die p seq u, s.recordBySeq die p seq = some u →
    let t : State := ({ s with unanswered := s.unanswered.erase u } : State).release die p u.page
    exec (.twResolveRetry die p seq) s = .next t ∧
    (u.queue < 32 → exec (.twResolveTerminate die p seq) s = .next (t.terminate die u.queue 3 0xFB)) ∧
    (32 ≤ u.queue → exec (.twResolveTerminate die p seq) s = .next t)) ∧
  (∀ (s : State) die p seq, s.recordBySeq die p seq = none →
    exec (.twResolveRetry die p seq) s = .next s ∧ exec (.twResolveTerminate die p seq) s = .next s) ∧
  (∀ (s : State) die p (w : Word), s.partBusy p = true →
    exec (.twPdaddrWrite die p w) s = .next ((s.wake die).setRegN die (twPdStatus p) 3)) ∧
  (∀ (s : State) die p (w : Word), s.partBusy p = false → w.getLsbD 0 = false → ∃ t, exec (.twPdaddrWrite die p w) s = .next t ∧
    (t.part? die p) = none ∧ t.reg die (twPdStatus p) = 0) ∧
  (∀ (s : State) die p (w : Word), s.partBusy p = false → w.getLsbD 0 = true →
    let s0 := s.wake die
    let s1 := s0.store die (twPdLo p) 0xFFFFFFC1 w
    let addr := w.toNat / 64 * 64 + s0.regN die (twPdHi p) % 65536 * 2 ^ 32
    let x := partOfDesc die p addr (s0.sceneNat addr 128)
    (s0.descOk die p addr = true → exec (.twPdaddrWrite die p w) s = .next (((({ s1 with
      parts := s1.parts.filter (fun x => !(x.die == die && x.num == p)) ++ [x]
      tlbs := s1.tlbs.filter fun t => !(t.die == die && t.part == p)
      upper := s1.upper.filter fun u => !(u.die == die && u.part == p) } : State).clearMem .sample
        (die * 2 ^ 29 + 65536 * (x.share die).sbBase) (65536 * (x.share die).sbSize)).setRegN die (twPdStatus p) 1).drainRecords p s.heldRecords.length)) ∧
    (s0.descOk die p addr = false → exec (.twPdaddrWrite die p w) s = .next (s0.setRegN die (twPdStatus p) 2))) ∧
  (∀ (s : State) p (w : Word), exec (.twFrtailWrite p w) s =
    .next ((s.setRegN 0 (twFrTail p) (w.toNat % 2 ^ 17)).drainRecords p s.heldRecords.length)) ∧
  (∀ (s : State) (w : Word), (s.locked = true → exec (.egLockWrite w) s = .next s) ∧
    (s.locked = false → exec (.egLockWrite w) s = .next (s.store 0 egLock 1 w)) ∧
    exec (.seAttreqWrite w) s = .next { (s.setReg 0 seBase w).setRegN 0 (seBase + 8) 1 with
      attest := some (w.toNat, s.regN 0 (seBase + 4) % 2 ^ 28) }) ∧
  (∀ (s : State) req out, s.attest = some (req, out) → (∀ p ∈ s.parts, p.num ≠ req / 2 ^ 28) →
    exec .attestationReport s = .next (({ s with attest := none } : State).setRegN 0 (seBase + 8) 3)) ∧
  (∀ (s : State) req out p, s.attest = some (req, out) → s.parts.find? (fun p => p.num == req / 2 ^ 28) = some p →
    let base := (s.protRange p.die).1
    let nonce := base + 64 * (req % 2 ^ 28)
    (s.inProt p.die nonce 32 = false ∨ s.inProt p.die (base + 64 * out) 384 = false →
      exec .attestationReport s = .next (({ s with attest := none } : State).setRegN 0 (seBase + 8) 4)) ∧
    (∀ vec s1, s.inProt p.die nonce 32 = true → s.inProt p.die (base + 64 * out) 384 = true → s.poisoned .scene p.addr 128 = false →
      s.vectorBytes p = (vec, s1) → s1.poisoned .scene nonce 32 = false →
      exec .attestationReport s = .next (({ s1.writeMem .scene (base + 64 * out) (attReport p (s.readMem .scene p.addr 128) vec
        (s1.readMem .scene nonce 32) s.stime) with attest := none } : State).setRegN 0 (seBase + 8) 2))) ∧
  (∀ (s : State), exec .debugAuthorisation s = .next (s.setReg 0 (seBase + 0x10) 1)) ∧
  (∀ (s : State) die off (v : DWord) src,
    (off % 4 = 0 → exec (.registerWrite die off 4 v src) s = .next (s.writeReg die off (loWord v) src)) ∧
    (off % 8 = 0 → (off < twPdLo 0 ∨ twPdLo 16 ≤ off) → exec (.registerWrite die off 8 v src) s =
      .next ((s.writeReg die off (loWord v) src).writeReg die (off + 4) (hiWord v) src)) ∧
    (off % 8 = 0 → twPdLo 0 ≤ off → off < twPdLo 16 → exec (.registerWrite die off 8 v src) s =
      .next ((s.writeReg die (off + 4) (hiWord v) src).writeReg die off (loWord v) src)) ∧
    (∀ n, n ≠ 4 → n ≠ 8 → exec (.registerWrite die off n v src) s = .next s)) ∧
  (∀ (s : State) die n (v : DWord) src, src ≠ .app → n < 16 → exec (.registerWrite die (mbox n) 4 v src) s = .next s)

/-- The twelve mailbox commands and their results (R381, R382, R386 to R388): those on a group end with 4 where a field is
reserved and with 2 where the group is not there, or the stream that HALT, GO or STEP names; HALT stops the streams that it selects, GO lets them go on, STEP lets one
instruction of each issue; READ and WRITE act on a group that is stopped whole, with 3 elsewhere; POP takes the oldest event, with 6
where there is none; MEMRD and MEMWR access one word, with 5 where they may not; QUERY, RREG, WREG and FIND answer in words 9 to 11. A
scan of the IEEE 1149.1 port acts while debugging is authorised (R380). Choices of the model: the order in which the results are tried,
and what MEMRD and MEMWR reach (log 81); what the port captures (log 82). -/
def Obligations.MailboxCommands : Prop :=
  (∀ (s : State) die part, ∀ e ∈ [(1, .halt die), (2, .go die), (3, .step die), (4, .read die), (5, .write die), (9, .query die)],
    Commanded s die e.1 part →
    (s.targetReserved die = true ∨ (e.1 ≠ 9 ∧ bits (s.mboxN die 1) 18 16 ∉ [0, 1, 3, 4]) →
      exec e.2 s = .next (s.mboxDone die 4)) ∧
    (s.targetReserved die = false → bits (s.mboxN die 1) 18 16 ∈ [0, 1, 3, 4] → s.target? die part = none →
      exec e.2 s = .next (s.mboxDone die 2))) ∧
  (∀ (s : State) die part g, s.targetReserved die = false → s.target? die part = some g → bits (s.mboxN die 1) 18 16 ∈ [0, 1] →
    g.hasStream (bits (s.mboxN die 1) 18 16) = false →
    (∀ e ∈ [(1, .halt die), (2, .go die), (3, .step die)], Commanded s die e.1 part → exec e.2 s = .next (s.mboxDone die 2)) ∧
    (∀ e ∈ [(4, .read die), (5, .write die)], Commanded s die e.1 part → exec e.2 s = .next (s.mboxDone die 3))) ∧
  (∀ (s : State) die part g, Targeted s die part g →
    (Commanded s die 1 part → exec (.halt die) s =
      .next (((chosen s die g).foldl (fun t n => t.haltStream g.uid n) s).mboxDone die 0)) ∧
    (Commanded s die 2 part → exec (.go die) s =
      .next (((s.setGroup ((chosen s die g).foldl Group.goStream g)).rejoin g.uid 0).mboxDone die 0)) ∧
    (Commanded s die 3 part →
      ((∀ n ∈ chosen s die g, (g.stop n).stopped = true) → exec (.step die) s = .next (((s.setGroup
        ((chosen s die g).foldl (fun g n => g.stepStream (bitAt (s.mboxN die 2) 0) n) g)).rejoin g.uid 0).mboxDone die 0)) ∧
      ((∃ n ∈ chosen s die g, (g.stop n).stopped = false) → exec (.step die) s = .next (s.mboxDone die 3))) ∧
    (Commanded s die 4 part →
      (g.allStopped = false → exec (.read die) s = .next (s.mboxDone die 3)) ∧
      (g.allStopped = true → s.debugWord g (s.mboxN die 2) (s.mboxN die 3) = none →
        exec (.read die) s = .next (s.mboxDone die 4)) ∧
      (∀ w, g.allStopped = true → s.debugWord g (s.mboxN die 2) (s.mboxN die 3) = some w →
        exec (.read die) s = .next ((s.setReg die (mbox 9) w).mboxDone die 0))) ∧
    (Commanded s die 5 part →
      (g.allStopped = false → exec (.write die) s = .next (s.mboxDone die 3)) ∧
      (g.allStopped = true → g.debugWrite (s.mboxN die 2) (s.mboxN die 3) (s.reg die (mbox 4)) = none →
        exec (.write die) s = .next (s.mboxDone die 4)) ∧
      (∀ g', g.allStopped = true → g.debugWrite (s.mboxN die 2) (s.mboxN die 3) (s.reg die (mbox 4)) = some g' →
        exec (.write die) s = .next ((s.setGroup g').mboxDone die 0)))) ∧
  (∀ (s : State) die part, Commanded s die 6 part →
    ((∀ e ∈ (s.die die).events, e.part ≠ part) → exec (.pop die) s = .next (s.mboxDone die 6)) ∧
    (∀ e, (s.die die).events.find? (fun e => e.part == part) = some e → exec (.pop die) s =
      .next ((((List.range 7).zip e.words).foldl (fun (t : State) x => t.setReg die (mbox (9 + x.1)) x.2)
        (s.setDie die { s.die die with events := (s.die die).events.erase e })).mboxDone die 0))) ∧
  (∀ (s : State) die part, let va := s.mboxN die 2 + 2 ^ 32 * s.mboxN die 3
    (Commanded s die 7 part →
      (va % 4 ≠ 0 → exec (.memrd die) s = .next (s.mboxDone die 4)) ∧
      (∀ c, va % 4 = 0 → s.debugAt die part va false = .inr c →
        exec (.memrd die) s = .next ((s.setRegN die (mbox 9) c).mboxDone die 5)) ∧
      (∀ sp a, va % 4 = 0 → s.debugAt die part va false = .inl (.mem sp a) →
        (s.poisoned sp a 4 = false →
          exec (.memrd die) s = .next ((s.setRegN die (mbox 9) (leNat (s.readMem sp a 4))).mboxDone die 0)) ∧
        (s.poisoned sp a 4 = true →
          exec (.memrd die) s = .next ((s.setRegN die (mbox 9) Code.uncorrectable.num).mboxDone die 5)))) ∧
    (Commanded s die 8 part →
      (va % 4 ≠ 0 → exec (.memwr die) s = .next (s.mboxDone die 4)) ∧
      (∀ c, va % 4 = 0 → s.debugAt die part va true = .inr c →
        exec (.memwr die) s = .next ((s.setRegN die (mbox 9) c).mboxDone die 5)) ∧
      (∀ sp a, va % 4 = 0 → s.debugAt die part va true = .inl (.mem sp a) →
        exec (.memwr die) s = .next ((s.writeMem sp a (leBytes 4 (s.mboxN die 4))).mboxDone die 0)))) ∧
  (∀ (s : State) die part g, Commanded s die 9 part → s.targetReserved die = false → s.target? die part = some g →
    exec (.query die) s = .next ((((s.setRegN die (mbox 9) (g.stopS.stopped.toNat + 2 * g.slotState false +
      8 * g.slotState true + 256 * (g.stopKind % 8))).setReg die (mbox 10) g.k.pc).setRegN die (mbox 11)
        (g.k.p0.pc % 65536 + g.k.p1.pc % 65536 * 65536)).mboxDone die 0)) ∧
  (∀ (s : State) die part, let o := s.mboxN die 2
    (Commanded s die 10 part →
      (dbReachable o = true → exec (.rreg die) s = .next ((s.setReg die (mbox 9) (s.readReg die (dbBase + o))).mboxDone die 0)) ∧
      (dbReachable o = false → exec (.rreg die) s = .next (s.mboxDone die 1))) ∧
    (Commanded s die 11 part →
      (dbReachable o = true → (o = 0x40 → (s.die die).mboxPort ≠ 1) →
        exec (.wreg die) s = .next ((s.writeReg die (dbBase + o) (s.reg die (mbox 3)) .app).mboxDone die 0)) ∧
      (dbReachable o = false ∨ (o = 0x40 ∧ (s.die die).mboxPort = 1) → exec (.wreg die) s = .next (s.mboxDone die 1)))) ∧
  (∀ (s : State) die part, Commanded s die 12 part →
    let w := s.mboxN die 2
    let mine := fun (k : Grid) => k.die == die && k.part == part && k.queue == w % 32 && k.tag == w / 65536 &&
      s.blocks.any fun b => b.grid == k.uid && !(s.groupsOf b.uid).isEmpty
    ((∀ k ∈ s.grids, mine k = false) → exec (.find die) s = .next (s.mboxDone die 2)) ∧
    (∀ k g, s.grids.filter mine = [k] →
      s.groups.find? (fun g => (s.blockOf g).grid == k.uid && (s.blockOf g).index == s.mboxN die 3 &&
        g.index == s.mboxN die 4 && !g.exited) = some g →
      exec (.find die) s = .next ((s.setRegN die (mbox 9) g.gid).mboxDone die 0)) ∧
    (∀ k, s.grids.filter mine = [k] →
      (∀ g ∈ s.groups, ¬((s.blockOf g).grid = k.uid ∧ (s.blockOf g).index = s.mboxN die 3 ∧ g.index = s.mboxN die 4 ∧
        g.exited = false)) → exec (.find die) s = .next (s.mboxDone die 2))) ∧
  (∀ (s : State) (data : BitVec 40),
    (s.regN 0 (seBase + 0x10) % 2 = 0 → exec (.mboxaccUpdate data) s = .next s) ∧
    (s.regN 0 (seBase + 0x10) % 2 = 1 → data.getLsbD 39 = false →
      exec (.mboxaccUpdate data) s = .next { s with
        out := s.out ++ [.scan s.scan]
        scan := ({ s with out := s.out ++ [.scan s.scan] } : State).readReg (bits data.toNat 38 38)
          (mbox (bits data.toNat 37 34)) }))

/-- What watches and what comes from outside (R6, R87, R293, R336, R389 to R392, R403, R405 to R414, R417 to R419): stall counters, samples
and barrier timers; bands read, once the translations that miss have been walked, sent and discarded; power states and wakes; replays and retraining of links; corrections of the
clocks; accesses of application cores and PCIe devices; scrubs; frames; module reset, after which every register holds its reset
value and scene memory its bytes; images that fail a check leave the module in recovery, its stacks off. The module's power, which the spec does not give, is a free value
(log 4). Choices of the model: a wake takes its whole bound (log 78); the conditions of power entries, decided at one look and made at the
next (log 79); what a module reset keeps (log 84); scrubs of LPDDR count on stack A, and an uncorrectable load gets no data (log 85); a
good frame has no effect (log 100); replays (log 101); the end of scene memory (log 106); recovery (log 121); a band's read is held by
stores, not by `mtst` (log 130). -/
def Obligations.OutsideEvents : Prop :=
  (∀ (s : State) u g r, s.group? u = some g → g.issued = false → g.exited = false → g.why = some r →
    exec (.stallCounterClk u) s = .next (s.setGroup { g with stalls := countStall g.stalls r, lastReason := r })) ∧
  (∀ (s : State) die t, (s.die die).sampler.next = some t → t ≤ s.clk → bitAt (s.regN die pfBase) 31 = true →
    ∃ t', exec (.profileSample die) s = .next t' ∧ (t'.die die).sampler.count = (s.die die).sampler.count + 1 ∧
      ∀ x, x = max 1 (s.regN die (pfBase + 8)) → ∀ st r,
        st = s.stalled die ((s.die die).sampler.count % 128) (x % 4) (4 * bits x 5 2 % 16) →
        ((st = none ∧ r = 0) ∨ ∃ g, st = some g ∧ g.why = some r) →
        let head := s.regN die (pfBase + 0x18)
        let n := max 4 (min 16 (s.regN die (pfBase + 0x14)))
        let free := (head + 2 ^ 17 - s.regN die (pfBase + 0x1C)) % 2 ^ 17 ≠ 2 ^ n
        (free → t'.scene = (s.writeMem .scene (s.ringBase die (pfBase + 0xC) + 32 * (head % 2 ^ n))
            (leBytes 32 (sampleRecord s st r (s.issuedOn die ((s.die die).sampler.count % 128) (x % 4))))).scene ∧
          t'.reg die (pfBase + 0x18) = word ((head + 1) % 2 ^ 17)) ∧
        (¬free → t'.scene = s.scene ∧ t'.reg die (pfBase + 0x20) = word (s.regN die (pfBase + 0x20) + 1))) ∧
  (∀ (s : State) g reason (i : Issue), reason < 16 → s.partOf g < 16 → g.gid < 2 ^ 13 → i.gid < 2 ^ 13 → i.part < 16 →
    i.pos < 2 ^ 32 →
    let r := sampleRecord s (some g) reason (some i)
    bits r 255 192 = s.clk % 2 ^ 64 ∧ bits r 191 160 = g.ctx.pc.toNat ∧ bits r 159 128 = i.pos ∧ bits r 127 112 = 0 ∧
    bits r 111 108 = reason ∧ bits r 107 104 = s.partOf g ∧ bits r 103 96 = 0 ∧ bits r 95 83 = g.gid ∧ bits r 82 80 = 0 ∧
    bits r 79 67 = i.gid ∧ bitAt r 66 = i.lane ∧ bits r 65 62 = i.part ∧ bits r 61 0 = 0) ∧
  (∀ (s : State) reason, reason < 16 → bits (sampleRecord s none reason none) 95 83 = 0x1FFF ∧
    bits (sampleRecord s none reason none) 79 67 = 0x1FFF) ∧
  (∀ (s : State) u n b k, s.block? u = some b → (b.bar n).first.isSome = true → s.timerPaused b n = false →
    s.grid? b.grid = some k →
    let t := s.modBlock u fun y => { y with bars := setNth y.bars n { y.bar n with count := (b.bar n).count + 1 } }
    (bitAt (s.regN b.die wdBase) 31 = false → exec (.barrierWatchdogExpiry u n) s = .next t) ∧
    (bitAt (s.regN b.die wdBase) 31 = true →
      clkPerUs * max 1 (s.regN b.die wdBase % 2 ^ 24) < (b.bar n).count + 1 → t.grid? b.grid = some k →
      exec (.barrierWatchdogExpiry u n) s = .next ((t.capture k ((t.block? u).getD b) n).terminateGrid k 3 0xFA))) ∧
  (∀ (s : State) k b bs, s.band? k = some b → b.data = none → b.dead = false →
    (∀ g, s.group? b.group = some g → ∀ o ∈ g.ops, o.holdsBand b = false) →
    s.bandMiss b = none → s.readVa (s.bandLook b) b.buffer b.bytes (b.bytes / 64 + 2) = .ok bs →
    exec (.egressBandRead k) s = .next ((((pagesOf b.buffer b.bytes).foldl (fun t p =>
      t.touchTlb b.die .base (coreCol b.core) b.part p) s).endXband b).setBand { b with
      data := some ((List.range (16 * b.width)).map fun i => word (leNat ((bs.drop (4 * i)).take 4))) })) ∧
  (∀ (s : State) k b va c, s.band? k = some b → b.data = none → b.dead = false →
    (∀ g, s.group? b.group = some g → ∀ o ∈ g.ops, o.holdsBand b = false) →
    s.bandMiss b = none → (s.readVa (s.bandLook b) b.buffer b.bytes (b.bytes / 64 + 2) = .record c va ∨
      ∃ c', s.readVa (s.bandLook b) b.buffer b.bytes (b.bytes / 64 + 2) = .refused c' va) →
    exec (.egressBandRead k) s = .next ((s.record b.die b.part 0x24
      { cls := .base, agent := 8, core := b.core, index := b.index, va := va } 0).discard b)) ∧
  (∀ (s : State) k b g o, s.band? k = some b → s.group? b.group = some g → o ∈ g.ops → o.holdsBand b = true →
    exec (.egressBandRead k) s = .next s) ∧
  (∀ (s : State) k b va, s.band? k = some b → b.data = none → b.dead = false →
    (∀ g, s.group? b.group = some g → ∀ o ∈ g.ops, o.holdsBand b = false) → s.bandMiss b = some va →
    ∃ t, exec (.egressBandRead k) s = .next t ∧
      t = { s with die0 := { s.die0 with walks := t.die0.walks }, die1 := { s.die1 with walks := t.die1.walks } }) ∧
  (∀ (s : State) b va, s.bandMiss b = some va → b.absent = none ∧ va ∈ pagesOf b.buffer b.bytes ∧ s.bandTlb b va = none) ∧
  (∀ (s : State) k b, s.band? k = some b → b.dead = false →
    (∀ t, b.start = some t → exec (.sliceTransmit k) s = .next (s.sendFragment b)) ∧
    (b.start = none → b.data.isSome = true → s.stime ≤ b.deadline.toNat → s.mustWait b true = false →
      exec (.sliceTransmit k) s =
        .next (s.sendFragment { b with start := some (BitVec.ofNat 64 s.stime), slice := s.sliceOf b })) ∧
    (b.start = none → b.deadline.toNat < s.stime → exec (.bandDeadlineExpiry k) s = .next (s.discard b))) ∧
  (∀ (s : State) die, let p := (s.die die).power
    exec (.powerWake die) s = .next (s.setPower die { p with
      toward := none, wake := if p.st = 0 then none else some (p.wake.getD (s.clk + wakeClks p.st)) }) ∧
    (∀ t, p.wake = some t → t ≤ s.clk → exec (.stackReachesD0 die) s = .next (s.setPower die {})) ∧
    (∀ t, p.wake = none → s.powerTarget die = t → p.st < t → p.toward = some t →
      exec (.powerStateEntry die) s = .next ((s.powerLoss die t).setPower die { st := t })) ∧
    (p.wake = none → s.powerTarget die < p.st → exec (.powerStateEntry die) s = .next (s.wake die))) ∧
  (∀ (s : State) die, let d := s.die die
    exec (.viaductRetrain die) s = .next ((s.countReg die (vxBase + 0x24)).setDie die { d with retrain := true, replays := 0 }) ∧
    exec (.viaductRetrainEnd die) s = .next (s.setDie die { d with retrain := false }) ∧
    (d.replays < 8 → exec (.viaductFlitReplay die) s =
      .next ((s.countReg die (vxBase + 0x20)).setDie die { d with replays := d.replays + 1 })) ∧
    (8 ≤ d.replays → exec (.viaductFlitReplay die) s = exec (.viaductRetrain die) s)) ∧
  (∀ (s : State) (delta : Int), ∃ t, exec (.ptpCorrection 0 delta) s = .next t ∧
    t.port0.ptp = ((s.port0.ptp : Int) + delta).toNat ∧ t.port1 = s.port1 ∧ s.stime ≤ t.stime) ∧
  (∀ (s : State) (delta : Int), ∃ t, exec (.ptpCorrection 1 delta) s = .next t ∧
    t.port1.ptp = ((s.port1.ptp : Int) + delta).toNat ∧ t.port0 = s.port0 ∧ s.stime ≤ t.stime) ∧
  (∀ (s : State) a n bs, bs ≠ [] →
    let stored := s.writeMem .scene a (bs.take (Config.sceneBytes - a))
    exec (.applicationCoreAccess { place := .scene, addr := a, n := n, bytes := bs }) s = .next stored ∧
    exec (.pcieDownstreamRequest { place := .imsic, addr := a, n := n, bytes := bs }) s = .next (s.msi a (leNat bs)) ∧
    (s.pcieAllowed a bs.length = true →
      exec (.pcieDownstreamRequest { place := .scene, addr := a, n := n, bytes := bs }) s = .next stored) ∧
    (s.pcieAllowed a bs.length = false →
      exec (.pcieDownstreamRequest { place := .scene, addr := a, n := n, bytes := bs }) s =
        .next (s.countReg 0 (twBase + 0x1C)))) ∧
  (∀ (s : State) a n,
    (a + n ≤ Config.sceneBytes → s.poisoned .scene a n = false →
      exec (.applicationCoreAccess { place := .scene, addr := a, n := n, bytes := [] }) s =
        .next { s with out := s.out ++ [.load (some (s.readMem .scene a n))] }) ∧
    (s.poisoned .scene a n = true →
      exec (.applicationCoreAccess { place := .scene, addr := a, n := n, bytes := [] }) s =
        .next { s with out := s.out ++ [.load none] })) ∧
  (∀ (s : State) m a,
    exec (.sramScrub m a .clean) s = .next s ∧ exec (.lpddrScrub a .clean) s = .next s ∧
    exec (.lpddrScrub a .corrected) s = .next (s.countReg 0 (scBase + 0x10)) ∧
    exec (.sramScrub m a .corrected) s = .next (s.countReg (s.scrubDie m a) (scBase + 0x10)) ∧
    exec (.sramScrub m a .uncorrectable) s = .next { s.countReg (s.scrubDie m a) (scBase + 0x14) with
      poison := if (m, a / 8 * 8) ∈ s.poison then s.poison else (m, a / 8 * 8) :: s.poison } ∧
    exec (.lpddrScrub a .uncorrectable) s = .next { s.countReg 0 (scBase + 0x14) with
      poison := if (.scene, a / 8 * 8) ∈ s.poison then s.poison else (.scene, a / 8 * 8) :: s.poison }) ∧
  (∀ (s : State) images, ∃ t, exec (.moduleReset images) s = .next t ∧
    (t.recovery = false ↔ images.length = 3 ∧ ∀ x ∈ images, bootAccepts x = true) ∧
    (∀ die, (t.die die).power.st = if t.recovery then 3 else 0) ∧ t.scene = s.scene ∧
    t.mmio = State.reset.mmio ∧ t.core = State.reset.core ∧ t.bank = State.reset.bank ∧ t.sample = State.reset.sample ∧
    t.groups = [] ∧ t.blocks = [] ∧ t.grids = [] ∧ t.parts = []) ∧
  (∀ (s : State), exec (.ethernetFrameReceived 0 true) s = .next s ∧ exec (.ethernetFrameReceived 1 true) s = .next s ∧
    exec (.ethernetFrameReceived 1 false) s = .next { s with port1 := { s.port1 with errors := s.port1.errors + 1 } } ∧
    exec (.ethernetFrameReceived 0 false) s = .next { s with port0 := { s.port0 with errors := s.port0.errors + 1 } }) ∧
  (∀ (s : State), ∃ t, exec .governorCheck s = .next t ∧
    (t.governed = true ↔ min 780 (s.regN 0 (pmBase + 8)) < t.regN 0 (pmBase + 0xC)))
end

