-- ==== Sys2Proof/Laws/State.lean ====
section
/-! SUPPORT. What each update of the state and of a group leaves as it was, one lemma per field, and what it writes. -/

namespace Sys2Proof.Laws
open Sys2Proof.Machine

/-! ### A group replaced -/

@[simp] theorem setGroup_scene (s : State) (g : Group) : (s.setGroup g).scene = s.scene := rfl
@[simp] theorem setGroup_core (s : State) (g : Group) : (s.setGroup g).core = s.core := rfl
@[simp] theorem setGroup_bank (s : State) (g : Group) : (s.setGroup g).bank = s.bank := rfl
@[simp] theorem setGroup_sample (s : State) (g : Group) : (s.setGroup g).sample = s.sample := rfl
@[simp] theorem setGroup_poison (s : State) (g : Group) : (s.setGroup g).poison = s.poison := rfl
@[simp] theorem setGroup_mmio (s : State) (g : Group) : (s.setGroup g).mmio = s.mmio := rfl
@[simp] theorem setGroup_clk (s : State) (g : Group) : (s.setGroup g).clk = s.clk := rfl
@[simp] theorem setGroup_stime (s : State) (g : Group) : (s.setGroup g).stime = s.stime := rfl
@[simp] theorem setGroup_slew (s : State) (g : Group) : (s.setGroup g).slew = s.slew := rfl
@[simp] theorem setGroup_port0 (s : State) (g : Group) : (s.setGroup g).port0 = s.port0 := rfl
@[simp] theorem setGroup_port1 (s : State) (g : Group) : (s.setGroup g).port1 = s.port1 := rfl
@[simp] theorem setGroup_recovery (s : State) (g : Group) : (s.setGroup g).recovery = s.recovery := rfl
@[simp] theorem setGroup_governed (s : State) (g : Group) : (s.setGroup g).governed = s.governed := rfl
@[simp] theorem setGroup_die0 (s : State) (g : Group) : (s.setGroup g).die0 = s.die0 := rfl
@[simp] theorem setGroup_die1 (s : State) (g : Group) : (s.setGroup g).die1 = s.die1 := rfl
@[simp] theorem setGroup_parts (s : State) (g : Group) : (s.setGroup g).parts = s.parts := rfl
@[simp] theorem setGroup_tokens (s : State) (g : Group) : (s.setGroup g).tokens = s.tokens := rfl
@[simp] theorem setGroup_pool (s : State) (g : Group) : (s.setGroup g).pool = s.pool := rfl
@[simp] theorem setGroup_reserves (s : State) (g : Group) : (s.setGroup g).reserves = s.reserves := rfl
@[simp] theorem setGroup_owners (s : State) (g : Group) : (s.setGroup g).owners = s.owners := rfl
@[simp] theorem setGroup_tlbs (s : State) (g : Group) : (s.setGroup g).tlbs = s.tlbs := rfl
@[simp] theorem setGroup_upper (s : State) (g : Group) : (s.setGroup g).upper = s.upper := rfl
@[simp] theorem setGroup_unanswered (s : State) (g : Group) : (s.setGroup g).unanswered = s.unanswered := rfl
@[simp] theorem setGroup_heldRecords (s : State) (g : Group) : (s.setGroup g).heldRecords = s.heldRecords := rfl
@[simp] theorem setGroup_lines (s : State) (g : Group) : (s.setGroup g).lines = s.lines := rfl
@[simp] theorem setGroup_grids (s : State) (g : Group) : (s.setGroup g).grids = s.grids := rfl
@[simp] theorem setGroup_blocks (s : State) (g : Group) : (s.setGroup g).blocks = s.blocks := rfl
@[simp] theorem setGroup_copies (s : State) (g : Group) : (s.setGroup g).copies = s.copies := rfl
@[simp] theorem setGroup_bands (s : State) (g : Group) : (s.setGroup g).bands = s.bands := rfl
@[simp] theorem setGroup_forwards (s : State) (g : Group) : (s.setGroup g).forwards = s.forwards := rfl
@[simp] theorem setGroup_out (s : State) (g : Group) : (s.setGroup g).out = s.out := rfl
@[simp] theorem setGroup_scan (s : State) (g : Group) : (s.setGroup g).scan = s.scan := rfl
@[simp] theorem setGroup_attest (s : State) (g : Group) : (s.setGroup g).attest = s.attest := rfl
@[simp] theorem setGroup_agenda (s : State) (g : Group) : (s.setGroup g).agenda = s.agenda := rfl
@[simp] theorem setGroup_cur (s : State) (g : Group) : (s.setGroup g).cur = s.cur := rfl
@[simp] theorem setGroup_usedS (s : State) (g : Group) : (s.setGroup g).usedS = s.usedS := rfl
@[simp] theorem setGroup_usedL (s : State) (g : Group) : (s.setGroup g).usedL = s.usedL := rfl
@[simp] theorem setGroup_inputs (s : State) (g : Group) : (s.setGroup g).inputs = s.inputs := rfl
@[simp] theorem setGroup_free (s : State) (g : Group) : (s.setGroup g).free = s.free := rfl
@[simp] theorem setGroup_fresh (s : State) (g : Group) : (s.setGroup g).fresh = s.fresh := rfl

/-! ### A group changed -/

@[simp] theorem modGroup_scene (s : State) (u : Nat) (f : Group → Group) : (s.modGroup u f).scene = s.scene := rfl
@[simp] theorem modGroup_core (s : State) (u : Nat) (f : Group → Group) : (s.modGroup u f).core = s.core := rfl
@[simp] theorem modGroup_bank (s : State) (u : Nat) (f : Group → Group) : (s.modGroup u f).bank = s.bank := rfl
@[simp] theorem modGroup_sample (s : State) (u : Nat) (f : Group → Group) : (s.modGroup u f).sample = s.sample := rfl
@[simp] theorem modGroup_poison (s : State) (u : Nat) (f : Group → Group) : (s.modGroup u f).poison = s.poison := rfl
@[simp] theorem modGroup_mmio (s : State) (u : Nat) (f : Group → Group) : (s.modGroup u f).mmio = s.mmio := rfl
@[simp] theorem modGroup_clk (s : State) (u : Nat) (f : Group → Group) : (s.modGroup u f).clk = s.clk := rfl
@[simp] theorem modGroup_stime (s : State) (u : Nat) (f : Group → Group) : (s.modGroup u f).stime = s.stime := rfl
@[simp] theorem modGroup_slew (s : State) (u : Nat) (f : Group → Group) : (s.modGroup u f).slew = s.slew := rfl
@[simp] theorem modGroup_port0 (s : State) (u : Nat) (f : Group → Group) : (s.modGroup u f).port0 = s.port0 := rfl
@[simp] theorem modGroup_port1 (s : State) (u : Nat) (f : Group → Group) : (s.modGroup u f).port1 = s.port1 := rfl
@[simp] theorem modGroup_recovery (s : State) (u : Nat) (f : Group → Group) : (s.modGroup u f).recovery = s.recovery := rfl
@[simp] theorem modGroup_governed (s : State) (u : Nat) (f : Group → Group) : (s.modGroup u f).governed = s.governed := rfl
@[simp] theorem modGroup_die0 (s : State) (u : Nat) (f : Group → Group) : (s.modGroup u f).die0 = s.die0 := rfl
@[simp] theorem modGroup_die1 (s : State) (u : Nat) (f : Group → Group) : (s.modGroup u f).die1 = s.die1 := rfl
@[simp] theorem modGroup_parts (s : State) (u : Nat) (f : Group → Group) : (s.modGroup u f).parts = s.parts := rfl
@[simp] theorem modGroup_tokens (s : State) (u : Nat) (f : Group → Group) : (s.modGroup u f).tokens = s.tokens := rfl
@[simp] theorem modGroup_pool (s : State) (u : Nat) (f : Group → Group) : (s.modGroup u f).pool = s.pool := rfl
@[simp] theorem modGroup_reserves (s : State) (u : Nat) (f : Group → Group) : (s.modGroup u f).reserves = s.reserves := rfl
@[simp] theorem modGroup_owners (s : State) (u : Nat) (f : Group → Group) : (s.modGroup u f).owners = s.owners := rfl
@[simp] theorem modGroup_tlbs (s : State) (u : Nat) (f : Group → Group) : (s.modGroup u f).tlbs = s.tlbs := rfl
@[simp] theorem modGroup_upper (s : State) (u : Nat) (f : Group → Group) : (s.modGroup u f).upper = s.upper := rfl
@[simp] theorem modGroup_unanswered (s : State) (u : Nat) (f : Group → Group) : (s.modGroup u f).unanswered = s.unanswered := rfl
@[simp] theorem modGroup_heldRecords (s : State) (u : Nat) (f : Group → Group) : (s.modGroup u f).heldRecords = s.heldRecords := rfl
@[simp] theorem modGroup_lines (s : State) (u : Nat) (f : Group → Group) : (s.modGroup u f).lines = s.lines := rfl
@[simp] theorem modGroup_grids (s : State) (u : Nat) (f : Group → Group) : (s.modGroup u f).grids = s.grids := rfl
@[simp] theorem modGroup_blocks (s : State) (u : Nat) (f : Group → Group) : (s.modGroup u f).blocks = s.blocks := rfl
@[simp] theorem modGroup_copies (s : State) (u : Nat) (f : Group → Group) : (s.modGroup u f).copies = s.copies := rfl
@[simp] theorem modGroup_bands (s : State) (u : Nat) (f : Group → Group) : (s.modGroup u f).bands = s.bands := rfl
@[simp] theorem modGroup_forwards (s : State) (u : Nat) (f : Group → Group) : (s.modGroup u f).forwards = s.forwards := rfl
@[simp] theorem modGroup_out (s : State) (u : Nat) (f : Group → Group) : (s.modGroup u f).out = s.out := rfl
@[simp] theorem modGroup_scan (s : State) (u : Nat) (f : Group → Group) : (s.modGroup u f).scan = s.scan := rfl
@[simp] theorem modGroup_attest (s : State) (u : Nat) (f : Group → Group) : (s.modGroup u f).attest = s.attest := rfl
@[simp] theorem modGroup_agenda (s : State) (u : Nat) (f : Group → Group) : (s.modGroup u f).agenda = s.agenda := rfl
@[simp] theorem modGroup_cur (s : State) (u : Nat) (f : Group → Group) : (s.modGroup u f).cur = s.cur := rfl
@[simp] theorem modGroup_usedS (s : State) (u : Nat) (f : Group → Group) : (s.modGroup u f).usedS = s.usedS := rfl
@[simp] theorem modGroup_usedL (s : State) (u : Nat) (f : Group → Group) : (s.modGroup u f).usedL = s.usedL := rfl
@[simp] theorem modGroup_inputs (s : State) (u : Nat) (f : Group → Group) : (s.modGroup u f).inputs = s.inputs := rfl
@[simp] theorem modGroup_free (s : State) (u : Nat) (f : Group → Group) : (s.modGroup u f).free = s.free := rfl
@[simp] theorem modGroup_fresh (s : State) (u : Nat) (f : Group → Group) : (s.modGroup u f).fresh = s.fresh := rfl

/-! ### A block changed -/

@[simp] theorem modBlock_scene (s : State) (u : Nat) (f : Block → Block) : (s.modBlock u f).scene = s.scene := rfl
@[simp] theorem modBlock_core (s : State) (u : Nat) (f : Block → Block) : (s.modBlock u f).core = s.core := rfl
@[simp] theorem modBlock_bank (s : State) (u : Nat) (f : Block → Block) : (s.modBlock u f).bank = s.bank := rfl
@[simp] theorem modBlock_sample (s : State) (u : Nat) (f : Block → Block) : (s.modBlock u f).sample = s.sample := rfl
@[simp] theorem modBlock_poison (s : State) (u : Nat) (f : Block → Block) : (s.modBlock u f).poison = s.poison := rfl
@[simp] theorem modBlock_mmio (s : State) (u : Nat) (f : Block → Block) : (s.modBlock u f).mmio = s.mmio := rfl
@[simp] theorem modBlock_clk (s : State) (u : Nat) (f : Block → Block) : (s.modBlock u f).clk = s.clk := rfl
@[simp] theorem modBlock_stime (s : State) (u : Nat) (f : Block → Block) : (s.modBlock u f).stime = s.stime := rfl
@[simp] theorem modBlock_slew (s : State) (u : Nat) (f : Block → Block) : (s.modBlock u f).slew = s.slew := rfl
@[simp] theorem modBlock_port0 (s : State) (u : Nat) (f : Block → Block) : (s.modBlock u f).port0 = s.port0 := rfl
@[simp] theorem modBlock_port1 (s : State) (u : Nat) (f : Block → Block) : (s.modBlock u f).port1 = s.port1 := rfl
@[simp] theorem modBlock_recovery (s : State) (u : Nat) (f : Block → Block) : (s.modBlock u f).recovery = s.recovery := rfl
@[simp] theorem modBlock_governed (s : State) (u : Nat) (f : Block → Block) : (s.modBlock u f).governed = s.governed := rfl
@[simp] theorem modBlock_die0 (s : State) (u : Nat) (f : Block → Block) : (s.modBlock u f).die0 = s.die0 := rfl
@[simp] theorem modBlock_die1 (s : State) (u : Nat) (f : Block → Block) : (s.modBlock u f).die1 = s.die1 := rfl
@[simp] theorem modBlock_parts (s : State) (u : Nat) (f : Block → Block) : (s.modBlock u f).parts = s.parts := rfl
@[simp] theorem modBlock_tokens (s : State) (u : Nat) (f : Block → Block) : (s.modBlock u f).tokens = s.tokens := rfl
@[simp] theorem modBlock_pool (s : State) (u : Nat) (f : Block → Block) : (s.modBlock u f).pool = s.pool := rfl
@[simp] theorem modBlock_reserves (s : State) (u : Nat) (f : Block → Block) : (s.modBlock u f).reserves = s.reserves := rfl
@[simp] theorem modBlock_owners (s : State) (u : Nat) (f : Block → Block) : (s.modBlock u f).owners = s.owners := rfl
@[simp] theorem modBlock_tlbs (s : State) (u : Nat) (f : Block → Block) : (s.modBlock u f).tlbs = s.tlbs := rfl
@[simp] theorem modBlock_upper (s : State) (u : Nat) (f : Block → Block) : (s.modBlock u f).upper = s.upper := rfl
@[simp] theorem modBlock_unanswered (s : State) (u : Nat) (f : Block → Block) : (s.modBlock u f).unanswered = s.unanswered := rfl
@[simp] theorem modBlock_heldRecords (s : State) (u : Nat) (f : Block → Block) : (s.modBlock u f).heldRecords = s.heldRecords := rfl
@[simp] theorem modBlock_lines (s : State) (u : Nat) (f : Block → Block) : (s.modBlock u f).lines = s.lines := rfl
@[simp] theorem modBlock_grids (s : State) (u : Nat) (f : Block → Block) : (s.modBlock u f).grids = s.grids := rfl
@[simp] theorem modBlock_groups (s : State) (u : Nat) (f : Block → Block) : (s.modBlock u f).groups = s.groups := rfl
@[simp] theorem modBlock_copies (s : State) (u : Nat) (f : Block → Block) : (s.modBlock u f).copies = s.copies := rfl
@[simp] theorem modBlock_bands (s : State) (u : Nat) (f : Block → Block) : (s.modBlock u f).bands = s.bands := rfl
@[simp] theorem modBlock_forwards (s : State) (u : Nat) (f : Block → Block) : (s.modBlock u f).forwards = s.forwards := rfl
@[simp] theorem modBlock_out (s : State) (u : Nat) (f : Block → Block) : (s.modBlock u f).out = s.out := rfl
@[simp] theorem modBlock_scan (s : State) (u : Nat) (f : Block → Block) : (s.modBlock u f).scan = s.scan := rfl
@[simp] theorem modBlock_attest (s : State) (u : Nat) (f : Block → Block) : (s.modBlock u f).attest = s.attest := rfl
@[simp] theorem modBlock_agenda (s : State) (u : Nat) (f : Block → Block) : (s.modBlock u f).agenda = s.agenda := rfl
@[simp] theorem modBlock_cur (s : State) (u : Nat) (f : Block → Block) : (s.modBlock u f).cur = s.cur := rfl
@[simp] theorem modBlock_usedS (s : State) (u : Nat) (f : Block → Block) : (s.modBlock u f).usedS = s.usedS := rfl
@[simp] theorem modBlock_usedL (s : State) (u : Nat) (f : Block → Block) : (s.modBlock u f).usedL = s.usedL := rfl
@[simp] theorem modBlock_inputs (s : State) (u : Nat) (f : Block → Block) : (s.modBlock u f).inputs = s.inputs := rfl
@[simp] theorem modBlock_free (s : State) (u : Nat) (f : Block → Block) : (s.modBlock u f).free = s.free := rfl
@[simp] theorem modBlock_fresh (s : State) (u : Nat) (f : Block → Block) : (s.modBlock u f).fresh = s.fresh := rfl

/-! ### A grid changed -/

@[simp] theorem modGrid_scene (s : State) (u : Nat) (f : Grid → Grid) : (s.modGrid u f).scene = s.scene := rfl
@[simp] theorem modGrid_core (s : State) (u : Nat) (f : Grid → Grid) : (s.modGrid u f).core = s.core := rfl
@[simp] theorem modGrid_bank (s : State) (u : Nat) (f : Grid → Grid) : (s.modGrid u f).bank = s.bank := rfl
@[simp] theorem modGrid_sample (s : State) (u : Nat) (f : Grid → Grid) : (s.modGrid u f).sample = s.sample := rfl
@[simp] theorem modGrid_poison (s : State) (u : Nat) (f : Grid → Grid) : (s.modGrid u f).poison = s.poison := rfl
@[simp] theorem modGrid_mmio (s : State) (u : Nat) (f : Grid → Grid) : (s.modGrid u f).mmio = s.mmio := rfl
@[simp] theorem modGrid_clk (s : State) (u : Nat) (f : Grid → Grid) : (s.modGrid u f).clk = s.clk := rfl
@[simp] theorem modGrid_stime (s : State) (u : Nat) (f : Grid → Grid) : (s.modGrid u f).stime = s.stime := rfl
@[simp] theorem modGrid_slew (s : State) (u : Nat) (f : Grid → Grid) : (s.modGrid u f).slew = s.slew := rfl
@[simp] theorem modGrid_port0 (s : State) (u : Nat) (f : Grid → Grid) : (s.modGrid u f).port0 = s.port0 := rfl
@[simp] theorem modGrid_port1 (s : State) (u : Nat) (f : Grid → Grid) : (s.modGrid u f).port1 = s.port1 := rfl
@[simp] theorem modGrid_recovery (s : State) (u : Nat) (f : Grid → Grid) : (s.modGrid u f).recovery = s.recovery := rfl
@[simp] theorem modGrid_governed (s : State) (u : Nat) (f : Grid → Grid) : (s.modGrid u f).governed = s.governed := rfl
@[simp] theorem modGrid_die0 (s : State) (u : Nat) (f : Grid → Grid) : (s.modGrid u f).die0 = s.die0 := rfl
@[simp] theorem modGrid_die1 (s : State) (u : Nat) (f : Grid → Grid) : (s.modGrid u f).die1 = s.die1 := rfl
@[simp] theorem modGrid_parts (s : State) (u : Nat) (f : Grid → Grid) : (s.modGrid u f).parts = s.parts := rfl
@[simp] theorem modGrid_tokens (s : State) (u : Nat) (f : Grid → Grid) : (s.modGrid u f).tokens = s.tokens := rfl
@[simp] theorem modGrid_pool (s : State) (u : Nat) (f : Grid → Grid) : (s.modGrid u f).pool = s.pool := rfl
@[simp] theorem modGrid_reserves (s : State) (u : Nat) (f : Grid → Grid) : (s.modGrid u f).reserves = s.reserves := rfl
@[simp] theorem modGrid_owners (s : State) (u : Nat) (f : Grid → Grid) : (s.modGrid u f).owners = s.owners := rfl
@[simp] theorem modGrid_tlbs (s : State) (u : Nat) (f : Grid → Grid) : (s.modGrid u f).tlbs = s.tlbs := rfl
@[simp] theorem modGrid_upper (s : State) (u : Nat) (f : Grid → Grid) : (s.modGrid u f).upper = s.upper := rfl
@[simp] theorem modGrid_unanswered (s : State) (u : Nat) (f : Grid → Grid) : (s.modGrid u f).unanswered = s.unanswered := rfl
@[simp] theorem modGrid_heldRecords (s : State) (u : Nat) (f : Grid → Grid) : (s.modGrid u f).heldRecords = s.heldRecords := rfl
@[simp] theorem modGrid_lines (s : State) (u : Nat) (f : Grid → Grid) : (s.modGrid u f).lines = s.lines := rfl
@[simp] theorem modGrid_blocks (s : State) (u : Nat) (f : Grid → Grid) : (s.modGrid u f).blocks = s.blocks := rfl
@[simp] theorem modGrid_groups (s : State) (u : Nat) (f : Grid → Grid) : (s.modGrid u f).groups = s.groups := rfl
@[simp] theorem modGrid_copies (s : State) (u : Nat) (f : Grid → Grid) : (s.modGrid u f).copies = s.copies := rfl
@[simp] theorem modGrid_bands (s : State) (u : Nat) (f : Grid → Grid) : (s.modGrid u f).bands = s.bands := rfl
@[simp] theorem modGrid_forwards (s : State) (u : Nat) (f : Grid → Grid) : (s.modGrid u f).forwards = s.forwards := rfl
@[simp] theorem modGrid_out (s : State) (u : Nat) (f : Grid → Grid) : (s.modGrid u f).out = s.out := rfl
@[simp] theorem modGrid_scan (s : State) (u : Nat) (f : Grid → Grid) : (s.modGrid u f).scan = s.scan := rfl
@[simp] theorem modGrid_attest (s : State) (u : Nat) (f : Grid → Grid) : (s.modGrid u f).attest = s.attest := rfl
@[simp] theorem modGrid_agenda (s : State) (u : Nat) (f : Grid → Grid) : (s.modGrid u f).agenda = s.agenda := rfl
@[simp] theorem modGrid_cur (s : State) (u : Nat) (f : Grid → Grid) : (s.modGrid u f).cur = s.cur := rfl
@[simp] theorem modGrid_usedS (s : State) (u : Nat) (f : Grid → Grid) : (s.modGrid u f).usedS = s.usedS := rfl
@[simp] theorem modGrid_usedL (s : State) (u : Nat) (f : Grid → Grid) : (s.modGrid u f).usedL = s.usedL := rfl
@[simp] theorem modGrid_inputs (s : State) (u : Nat) (f : Grid → Grid) : (s.modGrid u f).inputs = s.inputs := rfl
@[simp] theorem modGrid_free (s : State) (u : Nat) (f : Grid → Grid) : (s.modGrid u f).free = s.free := rfl
@[simp] theorem modGrid_fresh (s : State) (u : Nat) (f : Grid → Grid) : (s.modGrid u f).fresh = s.fresh := rfl

/-! ### A copy changed -/

@[simp] theorem modCopy_scene (s : State) (n : Nat) (f : Copy → Copy) : (s.modCopy n f).scene = s.scene := rfl
@[simp] theorem modCopy_core (s : State) (n : Nat) (f : Copy → Copy) : (s.modCopy n f).core = s.core := rfl
@[simp] theorem modCopy_bank (s : State) (n : Nat) (f : Copy → Copy) : (s.modCopy n f).bank = s.bank := rfl
@[simp] theorem modCopy_sample (s : State) (n : Nat) (f : Copy → Copy) : (s.modCopy n f).sample = s.sample := rfl
@[simp] theorem modCopy_poison (s : State) (n : Nat) (f : Copy → Copy) : (s.modCopy n f).poison = s.poison := rfl
@[simp] theorem modCopy_mmio (s : State) (n : Nat) (f : Copy → Copy) : (s.modCopy n f).mmio = s.mmio := rfl
@[simp] theorem modCopy_clk (s : State) (n : Nat) (f : Copy → Copy) : (s.modCopy n f).clk = s.clk := rfl
@[simp] theorem modCopy_stime (s : State) (n : Nat) (f : Copy → Copy) : (s.modCopy n f).stime = s.stime := rfl
@[simp] theorem modCopy_slew (s : State) (n : Nat) (f : Copy → Copy) : (s.modCopy n f).slew = s.slew := rfl
@[simp] theorem modCopy_port0 (s : State) (n : Nat) (f : Copy → Copy) : (s.modCopy n f).port0 = s.port0 := rfl
@[simp] theorem modCopy_port1 (s : State) (n : Nat) (f : Copy → Copy) : (s.modCopy n f).port1 = s.port1 := rfl
@[simp] theorem modCopy_recovery (s : State) (n : Nat) (f : Copy → Copy) : (s.modCopy n f).recovery = s.recovery := rfl
@[simp] theorem modCopy_governed (s : State) (n : Nat) (f : Copy → Copy) : (s.modCopy n f).governed = s.governed := rfl
@[simp] theorem modCopy_die0 (s : State) (n : Nat) (f : Copy → Copy) : (s.modCopy n f).die0 = s.die0 := rfl
@[simp] theorem modCopy_die1 (s : State) (n : Nat) (f : Copy → Copy) : (s.modCopy n f).die1 = s.die1 := rfl
@[simp] theorem modCopy_parts (s : State) (n : Nat) (f : Copy → Copy) : (s.modCopy n f).parts = s.parts := rfl
@[simp] theorem modCopy_tokens (s : State) (n : Nat) (f : Copy → Copy) : (s.modCopy n f).tokens = s.tokens := rfl
@[simp] theorem modCopy_pool (s : State) (n : Nat) (f : Copy → Copy) : (s.modCopy n f).pool = s.pool := rfl
@[simp] theorem modCopy_reserves (s : State) (n : Nat) (f : Copy → Copy) : (s.modCopy n f).reserves = s.reserves := rfl
@[simp] theorem modCopy_owners (s : State) (n : Nat) (f : Copy → Copy) : (s.modCopy n f).owners = s.owners := rfl
@[simp] theorem modCopy_tlbs (s : State) (n : Nat) (f : Copy → Copy) : (s.modCopy n f).tlbs = s.tlbs := rfl
@[simp] theorem modCopy_upper (s : State) (n : Nat) (f : Copy → Copy) : (s.modCopy n f).upper = s.upper := rfl
@[simp] theorem modCopy_unanswered (s : State) (n : Nat) (f : Copy → Copy) : (s.modCopy n f).unanswered = s.unanswered := rfl
@[simp] theorem modCopy_heldRecords (s : State) (n : Nat) (f : Copy → Copy) : (s.modCopy n f).heldRecords = s.heldRecords := rfl
@[simp] theorem modCopy_lines (s : State) (n : Nat) (f : Copy → Copy) : (s.modCopy n f).lines = s.lines := rfl
@[simp] theorem modCopy_grids (s : State) (n : Nat) (f : Copy → Copy) : (s.modCopy n f).grids = s.grids := rfl
@[simp] theorem modCopy_blocks (s : State) (n : Nat) (f : Copy → Copy) : (s.modCopy n f).blocks = s.blocks := rfl
@[simp] theorem modCopy_groups (s : State) (n : Nat) (f : Copy → Copy) : (s.modCopy n f).groups = s.groups := rfl
@[simp] theorem modCopy_bands (s : State) (n : Nat) (f : Copy → Copy) : (s.modCopy n f).bands = s.bands := rfl
@[simp] theorem modCopy_forwards (s : State) (n : Nat) (f : Copy → Copy) : (s.modCopy n f).forwards = s.forwards := rfl
@[simp] theorem modCopy_out (s : State) (n : Nat) (f : Copy → Copy) : (s.modCopy n f).out = s.out := rfl
@[simp] theorem modCopy_scan (s : State) (n : Nat) (f : Copy → Copy) : (s.modCopy n f).scan = s.scan := rfl
@[simp] theorem modCopy_attest (s : State) (n : Nat) (f : Copy → Copy) : (s.modCopy n f).attest = s.attest := rfl
@[simp] theorem modCopy_agenda (s : State) (n : Nat) (f : Copy → Copy) : (s.modCopy n f).agenda = s.agenda := rfl
@[simp] theorem modCopy_cur (s : State) (n : Nat) (f : Copy → Copy) : (s.modCopy n f).cur = s.cur := rfl
@[simp] theorem modCopy_usedS (s : State) (n : Nat) (f : Copy → Copy) : (s.modCopy n f).usedS = s.usedS := rfl
@[simp] theorem modCopy_usedL (s : State) (n : Nat) (f : Copy → Copy) : (s.modCopy n f).usedL = s.usedL := rfl
@[simp] theorem modCopy_inputs (s : State) (n : Nat) (f : Copy → Copy) : (s.modCopy n f).inputs = s.inputs := rfl
@[simp] theorem modCopy_free (s : State) (n : Nat) (f : Copy → Copy) : (s.modCopy n f).free = s.free := rfl
@[simp] theorem modCopy_fresh (s : State) (n : Nat) (f : Copy → Copy) : (s.modCopy n f).fresh = s.fresh := rfl

/-! ### A register written -/

@[simp] theorem setReg_scene (s : State) (die off : Nat) (v : Word) : (s.setReg die off v).scene = s.scene := by unfold State.setReg; rfl
@[simp] theorem setReg_core (s : State) (die off : Nat) (v : Word) : (s.setReg die off v).core = s.core := by unfold State.setReg; rfl
@[simp] theorem setReg_bank (s : State) (die off : Nat) (v : Word) : (s.setReg die off v).bank = s.bank := by unfold State.setReg; rfl
@[simp] theorem setReg_sample (s : State) (die off : Nat) (v : Word) : (s.setReg die off v).sample = s.sample := by unfold State.setReg; rfl
@[simp] theorem setReg_poison (s : State) (die off : Nat) (v : Word) : (s.setReg die off v).poison = s.poison := by unfold State.setReg; rfl
@[simp] theorem setReg_clk (s : State) (die off : Nat) (v : Word) : (s.setReg die off v).clk = s.clk := by unfold State.setReg; rfl
@[simp] theorem setReg_stime (s : State) (die off : Nat) (v : Word) : (s.setReg die off v).stime = s.stime := by unfold State.setReg; rfl
@[simp] theorem setReg_slew (s : State) (die off : Nat) (v : Word) : (s.setReg die off v).slew = s.slew := by unfold State.setReg; rfl
@[simp] theorem setReg_port0 (s : State) (die off : Nat) (v : Word) : (s.setReg die off v).port0 = s.port0 := by unfold State.setReg; rfl
@[simp] theorem setReg_port1 (s : State) (die off : Nat) (v : Word) : (s.setReg die off v).port1 = s.port1 := by unfold State.setReg; rfl
@[simp] theorem setReg_recovery (s : State) (die off : Nat) (v : Word) : (s.setReg die off v).recovery = s.recovery := by unfold State.setReg; rfl
@[simp] theorem setReg_governed (s : State) (die off : Nat) (v : Word) : (s.setReg die off v).governed = s.governed := by unfold State.setReg; rfl
@[simp] theorem setReg_die0 (s : State) (die off : Nat) (v : Word) : (s.setReg die off v).die0 = s.die0 := by unfold State.setReg; rfl
@[simp] theorem setReg_die1 (s : State) (die off : Nat) (v : Word) : (s.setReg die off v).die1 = s.die1 := by unfold State.setReg; rfl
@[simp] theorem setReg_parts (s : State) (die off : Nat) (v : Word) : (s.setReg die off v).parts = s.parts := by unfold State.setReg; rfl
@[simp] theorem setReg_tokens (s : State) (die off : Nat) (v : Word) : (s.setReg die off v).tokens = s.tokens := by unfold State.setReg; rfl
@[simp] theorem setReg_pool (s : State) (die off : Nat) (v : Word) : (s.setReg die off v).pool = s.pool := by unfold State.setReg; rfl
@[simp] theorem setReg_reserves (s : State) (die off : Nat) (v : Word) : (s.setReg die off v).reserves = s.reserves := by unfold State.setReg; rfl
@[simp] theorem setReg_owners (s : State) (die off : Nat) (v : Word) : (s.setReg die off v).owners = s.owners := by unfold State.setReg; rfl
@[simp] theorem setReg_tlbs (s : State) (die off : Nat) (v : Word) : (s.setReg die off v).tlbs = s.tlbs := by unfold State.setReg; rfl
@[simp] theorem setReg_upper (s : State) (die off : Nat) (v : Word) : (s.setReg die off v).upper = s.upper := by unfold State.setReg; rfl
@[simp] theorem setReg_unanswered (s : State) (die off : Nat) (v : Word) : (s.setReg die off v).unanswered = s.unanswered := by unfold State.setReg; rfl
@[simp] theorem setReg_heldRecords (s : State) (die off : Nat) (v : Word) : (s.setReg die off v).heldRecords = s.heldRecords := by unfold State.setReg; rfl
@[simp] theorem setReg_lines (s : State) (die off : Nat) (v : Word) : (s.setReg die off v).lines = s.lines := by unfold State.setReg; rfl
@[simp] theorem setReg_grids (s : State) (die off : Nat) (v : Word) : (s.setReg die off v).grids = s.grids := by unfold State.setReg; rfl
@[simp] theorem setReg_blocks (s : State) (die off : Nat) (v : Word) : (s.setReg die off v).blocks = s.blocks := by unfold State.setReg; rfl
@[simp] theorem setReg_groups (s : State) (die off : Nat) (v : Word) : (s.setReg die off v).groups = s.groups := by unfold State.setReg; rfl
@[simp] theorem setReg_copies (s : State) (die off : Nat) (v : Word) : (s.setReg die off v).copies = s.copies := by unfold State.setReg; rfl
@[simp] theorem setReg_bands (s : State) (die off : Nat) (v : Word) : (s.setReg die off v).bands = s.bands := by unfold State.setReg; rfl
@[simp] theorem setReg_forwards (s : State) (die off : Nat) (v : Word) : (s.setReg die off v).forwards = s.forwards := by unfold State.setReg; rfl
@[simp] theorem setReg_out (s : State) (die off : Nat) (v : Word) : (s.setReg die off v).out = s.out := by unfold State.setReg; rfl
@[simp] theorem setReg_scan (s : State) (die off : Nat) (v : Word) : (s.setReg die off v).scan = s.scan := by unfold State.setReg; rfl
@[simp] theorem setReg_attest (s : State) (die off : Nat) (v : Word) : (s.setReg die off v).attest = s.attest := by unfold State.setReg; rfl
@[simp] theorem setReg_agenda (s : State) (die off : Nat) (v : Word) : (s.setReg die off v).agenda = s.agenda := by unfold State.setReg; rfl
@[simp] theorem setReg_cur (s : State) (die off : Nat) (v : Word) : (s.setReg die off v).cur = s.cur := by unfold State.setReg; rfl
@[simp] theorem setReg_usedS (s : State) (die off : Nat) (v : Word) : (s.setReg die off v).usedS = s.usedS := by unfold State.setReg; rfl
@[simp] theorem setReg_usedL (s : State) (die off : Nat) (v : Word) : (s.setReg die off v).usedL = s.usedL := by unfold State.setReg; rfl
@[simp] theorem setReg_inputs (s : State) (die off : Nat) (v : Word) : (s.setReg die off v).inputs = s.inputs := by unfold State.setReg; rfl
@[simp] theorem setReg_free (s : State) (die off : Nat) (v : Word) : (s.setReg die off v).free = s.free := by unfold State.setReg; rfl
@[simp] theorem setReg_fresh (s : State) (die off : Nat) (v : Word) : (s.setReg die off v).fresh = s.fresh := by unfold State.setReg; rfl

/-! ### The units of a stack replaced -/

@[simp] theorem setDie_scene (s : State) (n : Nat) (x : Die) : (s.setDie n x).scene = s.scene := by unfold State.setDie; split <;> rfl
@[simp] theorem setDie_core (s : State) (n : Nat) (x : Die) : (s.setDie n x).core = s.core := by unfold State.setDie; split <;> rfl
@[simp] theorem setDie_bank (s : State) (n : Nat) (x : Die) : (s.setDie n x).bank = s.bank := by unfold State.setDie; split <;> rfl
@[simp] theorem setDie_sample (s : State) (n : Nat) (x : Die) : (s.setDie n x).sample = s.sample := by unfold State.setDie; split <;> rfl
@[simp] theorem setDie_poison (s : State) (n : Nat) (x : Die) : (s.setDie n x).poison = s.poison := by unfold State.setDie; split <;> rfl
@[simp] theorem setDie_mmio (s : State) (n : Nat) (x : Die) : (s.setDie n x).mmio = s.mmio := by unfold State.setDie; split <;> rfl
@[simp] theorem setDie_clk (s : State) (n : Nat) (x : Die) : (s.setDie n x).clk = s.clk := by unfold State.setDie; split <;> rfl
@[simp] theorem setDie_stime (s : State) (n : Nat) (x : Die) : (s.setDie n x).stime = s.stime := by unfold State.setDie; split <;> rfl
@[simp] theorem setDie_slew (s : State) (n : Nat) (x : Die) : (s.setDie n x).slew = s.slew := by unfold State.setDie; split <;> rfl
@[simp] theorem setDie_port0 (s : State) (n : Nat) (x : Die) : (s.setDie n x).port0 = s.port0 := by unfold State.setDie; split <;> rfl
@[simp] theorem setDie_port1 (s : State) (n : Nat) (x : Die) : (s.setDie n x).port1 = s.port1 := by unfold State.setDie; split <;> rfl
@[simp] theorem setDie_recovery (s : State) (n : Nat) (x : Die) : (s.setDie n x).recovery = s.recovery := by unfold State.setDie; split <;> rfl
@[simp] theorem setDie_governed (s : State) (n : Nat) (x : Die) : (s.setDie n x).governed = s.governed := by unfold State.setDie; split <;> rfl
@[simp] theorem setDie_parts (s : State) (n : Nat) (x : Die) : (s.setDie n x).parts = s.parts := by unfold State.setDie; split <;> rfl
@[simp] theorem setDie_tokens (s : State) (n : Nat) (x : Die) : (s.setDie n x).tokens = s.tokens := by unfold State.setDie; split <;> rfl
@[simp] theorem setDie_pool (s : State) (n : Nat) (x : Die) : (s.setDie n x).pool = s.pool := by unfold State.setDie; split <;> rfl
@[simp] theorem setDie_reserves (s : State) (n : Nat) (x : Die) : (s.setDie n x).reserves = s.reserves := by unfold State.setDie; split <;> rfl
@[simp] theorem setDie_owners (s : State) (n : Nat) (x : Die) : (s.setDie n x).owners = s.owners := by unfold State.setDie; split <;> rfl
@[simp] theorem setDie_tlbs (s : State) (n : Nat) (x : Die) : (s.setDie n x).tlbs = s.tlbs := by unfold State.setDie; split <;> rfl
@[simp] theorem setDie_upper (s : State) (n : Nat) (x : Die) : (s.setDie n x).upper = s.upper := by unfold State.setDie; split <;> rfl
@[simp] theorem setDie_unanswered (s : State) (n : Nat) (x : Die) : (s.setDie n x).unanswered = s.unanswered := by unfold State.setDie; split <;> rfl
@[simp] theorem setDie_heldRecords (s : State) (n : Nat) (x : Die) : (s.setDie n x).heldRecords = s.heldRecords := by unfold State.setDie; split <;> rfl
@[simp] theorem setDie_lines (s : State) (n : Nat) (x : Die) : (s.setDie n x).lines = s.lines := by unfold State.setDie; split <;> rfl
@[simp] theorem setDie_grids (s : State) (n : Nat) (x : Die) : (s.setDie n x).grids = s.grids := by unfold State.setDie; split <;> rfl
@[simp] theorem setDie_blocks (s : State) (n : Nat) (x : Die) : (s.setDie n x).blocks = s.blocks := by unfold State.setDie; split <;> rfl
@[simp] theorem setDie_groups (s : State) (n : Nat) (x : Die) : (s.setDie n x).groups = s.groups := by unfold State.setDie; split <;> rfl
@[simp] theorem setDie_copies (s : State) (n : Nat) (x : Die) : (s.setDie n x).copies = s.copies := by unfold State.setDie; split <;> rfl
@[simp] theorem setDie_bands (s : State) (n : Nat) (x : Die) : (s.setDie n x).bands = s.bands := by unfold State.setDie; split <;> rfl
@[simp] theorem setDie_forwards (s : State) (n : Nat) (x : Die) : (s.setDie n x).forwards = s.forwards := by unfold State.setDie; split <;> rfl
@[simp] theorem setDie_out (s : State) (n : Nat) (x : Die) : (s.setDie n x).out = s.out := by unfold State.setDie; split <;> rfl
@[simp] theorem setDie_scan (s : State) (n : Nat) (x : Die) : (s.setDie n x).scan = s.scan := by unfold State.setDie; split <;> rfl
@[simp] theorem setDie_attest (s : State) (n : Nat) (x : Die) : (s.setDie n x).attest = s.attest := by unfold State.setDie; split <;> rfl
@[simp] theorem setDie_agenda (s : State) (n : Nat) (x : Die) : (s.setDie n x).agenda = s.agenda := by unfold State.setDie; split <;> rfl
@[simp] theorem setDie_cur (s : State) (n : Nat) (x : Die) : (s.setDie n x).cur = s.cur := by unfold State.setDie; split <;> rfl
@[simp] theorem setDie_usedS (s : State) (n : Nat) (x : Die) : (s.setDie n x).usedS = s.usedS := by unfold State.setDie; split <;> rfl
@[simp] theorem setDie_usedL (s : State) (n : Nat) (x : Die) : (s.setDie n x).usedL = s.usedL := by unfold State.setDie; split <;> rfl
@[simp] theorem setDie_inputs (s : State) (n : Nat) (x : Die) : (s.setDie n x).inputs = s.inputs := by unfold State.setDie; split <;> rfl
@[simp] theorem setDie_free (s : State) (n : Nat) (x : Die) : (s.setDie n x).free = s.free := by unfold State.setDie; split <;> rfl
@[simp] theorem setDie_fresh (s : State) (n : Nat) (x : Die) : (s.setDie n x).fresh = s.fresh := by unfold State.setDie; split <;> rfl

/-! ### A memory replaced -/

@[simp] theorem setMem_poison (s : State) (sp : Space) (m : Mem) : (s.setMem sp m).poison = s.poison := by cases sp <;> rfl
@[simp] theorem setMem_mmio (s : State) (sp : Space) (m : Mem) : (s.setMem sp m).mmio = s.mmio := by cases sp <;> rfl
@[simp] theorem setMem_clk (s : State) (sp : Space) (m : Mem) : (s.setMem sp m).clk = s.clk := by cases sp <;> rfl
@[simp] theorem setMem_stime (s : State) (sp : Space) (m : Mem) : (s.setMem sp m).stime = s.stime := by cases sp <;> rfl
@[simp] theorem setMem_slew (s : State) (sp : Space) (m : Mem) : (s.setMem sp m).slew = s.slew := by cases sp <;> rfl
@[simp] theorem setMem_port0 (s : State) (sp : Space) (m : Mem) : (s.setMem sp m).port0 = s.port0 := by cases sp <;> rfl
@[simp] theorem setMem_port1 (s : State) (sp : Space) (m : Mem) : (s.setMem sp m).port1 = s.port1 := by cases sp <;> rfl
@[simp] theorem setMem_recovery (s : State) (sp : Space) (m : Mem) : (s.setMem sp m).recovery = s.recovery := by cases sp <;> rfl
@[simp] theorem setMem_governed (s : State) (sp : Space) (m : Mem) : (s.setMem sp m).governed = s.governed := by cases sp <;> rfl
@[simp] theorem setMem_die0 (s : State) (sp : Space) (m : Mem) : (s.setMem sp m).die0 = s.die0 := by cases sp <;> rfl
@[simp] theorem setMem_die1 (s : State) (sp : Space) (m : Mem) : (s.setMem sp m).die1 = s.die1 := by cases sp <;> rfl
@[simp] theorem setMem_parts (s : State) (sp : Space) (m : Mem) : (s.setMem sp m).parts = s.parts := by cases sp <;> rfl
@[simp] theorem setMem_tokens (s : State) (sp : Space) (m : Mem) : (s.setMem sp m).tokens = s.tokens := by cases sp <;> rfl
@[simp] theorem setMem_pool (s : State) (sp : Space) (m : Mem) : (s.setMem sp m).pool = s.pool := by cases sp <;> rfl
@[simp] theorem setMem_reserves (s : State) (sp : Space) (m : Mem) : (s.setMem sp m).reserves = s.reserves := by cases sp <;> rfl
@[simp] theorem setMem_owners (s : State) (sp : Space) (m : Mem) : (s.setMem sp m).owners = s.owners := by cases sp <;> rfl
@[simp] theorem setMem_tlbs (s : State) (sp : Space) (m : Mem) : (s.setMem sp m).tlbs = s.tlbs := by cases sp <;> rfl
@[simp] theorem setMem_upper (s : State) (sp : Space) (m : Mem) : (s.setMem sp m).upper = s.upper := by cases sp <;> rfl
@[simp] theorem setMem_unanswered (s : State) (sp : Space) (m : Mem) : (s.setMem sp m).unanswered = s.unanswered := by cases sp <;> rfl
@[simp] theorem setMem_heldRecords (s : State) (sp : Space) (m : Mem) : (s.setMem sp m).heldRecords = s.heldRecords := by cases sp <;> rfl
@[simp] theorem setMem_lines (s : State) (sp : Space) (m : Mem) : (s.setMem sp m).lines = s.lines := by cases sp <;> rfl
@[simp] theorem setMem_grids (s : State) (sp : Space) (m : Mem) : (s.setMem sp m).grids = s.grids := by cases sp <;> rfl
@[simp] theorem setMem_blocks (s : State) (sp : Space) (m : Mem) : (s.setMem sp m).blocks = s.blocks := by cases sp <;> rfl
@[simp] theorem setMem_groups (s : State) (sp : Space) (m : Mem) : (s.setMem sp m).groups = s.groups := by cases sp <;> rfl
@[simp] theorem setMem_copies (s : State) (sp : Space) (m : Mem) : (s.setMem sp m).copies = s.copies := by cases sp <;> rfl
@[simp] theorem setMem_bands (s : State) (sp : Space) (m : Mem) : (s.setMem sp m).bands = s.bands := by cases sp <;> rfl
@[simp] theorem setMem_forwards (s : State) (sp : Space) (m : Mem) : (s.setMem sp m).forwards = s.forwards := by cases sp <;> rfl
@[simp] theorem setMem_out (s : State) (sp : Space) (m : Mem) : (s.setMem sp m).out = s.out := by cases sp <;> rfl
@[simp] theorem setMem_scan (s : State) (sp : Space) (m : Mem) : (s.setMem sp m).scan = s.scan := by cases sp <;> rfl
@[simp] theorem setMem_attest (s : State) (sp : Space) (m : Mem) : (s.setMem sp m).attest = s.attest := by cases sp <;> rfl
@[simp] theorem setMem_agenda (s : State) (sp : Space) (m : Mem) : (s.setMem sp m).agenda = s.agenda := by cases sp <;> rfl
@[simp] theorem setMem_cur (s : State) (sp : Space) (m : Mem) : (s.setMem sp m).cur = s.cur := by cases sp <;> rfl
@[simp] theorem setMem_usedS (s : State) (sp : Space) (m : Mem) : (s.setMem sp m).usedS = s.usedS := by cases sp <;> rfl
@[simp] theorem setMem_usedL (s : State) (sp : Space) (m : Mem) : (s.setMem sp m).usedL = s.usedL := by cases sp <;> rfl
@[simp] theorem setMem_inputs (s : State) (sp : Space) (m : Mem) : (s.setMem sp m).inputs = s.inputs := by cases sp <;> rfl
@[simp] theorem setMem_free (s : State) (sp : Space) (m : Mem) : (s.setMem sp m).free = s.free := by cases sp <;> rfl
@[simp] theorem setMem_fresh (s : State) (sp : Space) (m : Mem) : (s.setMem sp m).fresh = s.fresh := by cases sp <;> rfl

/-! ### The context of the mode replaced -/

@[simp] theorem setCtx_uid (g : Group) (c : Ctx) : (g.setCtx c).uid = g.uid := by unfold Group.setCtx; split <;> rfl
@[simp] theorem setCtx_block (g : Group) (c : Ctx) : (g.setCtx c).block = g.block := by unfold Group.setCtx; split <;> rfl
@[simp] theorem setCtx_index (g : Group) (c : Ctx) : (g.setCtx c).index = g.index := by unfold Group.setCtx; split <;> rfl
@[simp] theorem setCtx_die (g : Group) (c : Ctx) : (g.setCtx c).die = g.die := by unfold Group.setCtx; split <;> rfl
@[simp] theorem setCtx_core (g : Group) (c : Ctx) : (g.setCtx c).core = g.core := by unfold Group.setCtx; split <;> rfl
@[simp] theorem setCtx_quarter (g : Group) (c : Ctx) : (g.setCtx c).quarter = g.quarter := by unfold Group.setCtx; split <;> rfl
@[simp] theorem setCtx_rslot (g : Group) (c : Ctx) : (g.setCtx c).rslot = g.rslot := by unfold Group.setCtx; split <;> rfl
@[simp] theorem setCtx_vbase (g : Group) (c : Ctx) : (g.setCtx c).vbase = g.vbase := by unfold Group.setCtx; split <;> rfl
@[simp] theorem setCtx_vwin (g : Group) (c : Ctx) : (g.setCtx c).vwin = g.vwin := by unfold Group.setCtx; split <;> rfl
@[simp] theorem setCtx_uwin (g : Group) (c : Ctx) : (g.setCtx c).uwin = g.uwin := by unfold Group.setCtx; split <;> rfl
@[simp] theorem setCtx_awin (g : Group) (c : Ctx) : (g.setCtx c).awin = g.awin := by unfold Group.setCtx; split <;> rfl
@[simp] theorem setCtx_ureg (g : Group) (c : Ctx) : (g.setCtx c).ureg = g.ureg := by unfold Group.setCtx; split <;> rfl
@[simp] theorem setCtx_vreg (g : Group) (c : Ctx) : (g.setCtx c).vreg = g.vreg := by unfold Group.setCtx; split <;> rfl
@[simp] theorem setCtx_tile (g : Group) (c : Ctx) : (g.setCtx c).tile = g.tile := by unfold Group.setCtx; split <;> rfl
@[simp] theorem setCtx_sureg (g : Group) (c : Ctx) : (g.setCtx c).sureg = g.sureg := by unfold Group.setCtx; split <;> rfl
@[simp] theorem setCtx_svreg (g : Group) (c : Ctx) : (g.setCtx c).svreg = g.svreg := by unfold Group.setCtx; split <;> rfl
@[simp] theorem setCtx_mode (g : Group) (c : Ctx) : (g.setCtx c).mode = g.mode := by unfold Group.setCtx; split <;> rfl
@[simp] theorem setCtx_entry (g : Group) (c : Ctx) : (g.setCtx c).entry = g.entry := by unfold Group.setCtx; split <;> rfl
@[simp] theorem setCtx_restored (g : Group) (c : Ctx) : (g.setCtx c).restored = g.restored := by unfold Group.setCtx; split <;> rfl
@[simp] theorem setCtx_saved (g : Group) (c : Ctx) : (g.setCtx c).saved = g.saved := by unfold Group.setCtx; split <;> rfl
@[simp] theorem setCtx_live (g : Group) (c : Ctx) : (g.setCtx c).live = g.live := by unfold Group.setCtx; split <;> rfl
@[simp] theorem setCtx_stimeHi (g : Group) (c : Ctx) : (g.setCtx c).stimeHi = g.stimeHi := by unfold Group.setCtx; split <;> rfl
@[simp] theorem setCtx_clkHi (g : Group) (c : Ctx) : (g.setCtx c).clkHi = g.clkHi := by unfold Group.setCtx; split <;> rfl
@[simp] theorem setCtx_k0 (g : Group) (c : Ctx) : (g.setCtx c).k0 = g.k0 := by unfold Group.setCtx; split <;> rfl
@[simp] theorem setCtx_k1 (g : Group) (c : Ctx) : (g.setCtx c).k1 = g.k1 := by unfold Group.setCtx; split <;> rfl
@[simp] theorem setCtx_k2 (g : Group) (c : Ctx) : (g.setCtx c).k2 = g.k2 := by unfold Group.setCtx; split <;> rfl
@[simp] theorem setCtx_segA (g : Group) (c : Ctx) : (g.setCtx c).segA = g.segA := by unfold Group.setCtx; split <;> rfl
@[simp] theorem setCtx_segB (g : Group) (c : Ctx) : (g.setCtx c).segB = g.segB := by unfold Group.setCtx; split <;> rfl
@[simp] theorem setCtx_segM (g : Group) (c : Ctx) : (g.setCtx c).segM = g.segM := by unfold Group.setCtx; split <;> rfl
@[simp] theorem setCtx_ops (g : Group) (c : Ctx) : (g.setCtx c).ops = g.ops := by unfold Group.setCtx; split <;> rfl
@[simp] theorem setCtx_nextOp (g : Group) (c : Ctx) : (g.setCtx c).nextOp = g.nextOp := by unfold Group.setCtx; split <;> rfl
@[simp] theorem setCtx_frozen (g : Group) (c : Ctx) : (g.setCtx c).frozen = g.frozen := by unfold Group.setCtx; split <;> rfl
@[simp] theorem setCtx_deferred (g : Group) (c : Ctx) : (g.setCtx c).deferred = g.deferred := by unfold Group.setCtx; split <;> rfl
@[simp] theorem setCtx_watch (g : Group) (c : Ctx) : (g.setCtx c).watch = g.watch := by unfold Group.setCtx; split <;> rfl
@[simp] theorem setCtx_stepTraps (g : Group) (c : Ctx) : (g.setCtx c).stepTraps = g.stepTraps := by unfold Group.setCtx; split <;> rfl
@[simp] theorem setCtx_preempt (g : Group) (c : Ctx) : (g.setCtx c).preempt = g.preempt := by unfold Group.setCtx; split <;> rfl
@[simp] theorem setCtx_trapS (g : Group) (c : Ctx) : (g.setCtx c).trapS = g.trapS := by unfold Group.setCtx; split <;> rfl
@[simp] theorem setCtx_trap0 (g : Group) (c : Ctx) : (g.setCtx c).trap0 = g.trap0 := by unfold Group.setCtx; split <;> rfl
@[simp] theorem setCtx_trap1 (g : Group) (c : Ctx) : (g.setCtx c).trap1 = g.trap1 := by unfold Group.setCtx; split <;> rfl
@[simp] theorem setCtx_feeds (g : Group) (c : Ctx) : (g.setCtx c).feeds = g.feeds := by unfold Group.setCtx; split <;> rfl
@[simp] theorem setCtx_heldRec (g : Group) (c : Ctx) : (g.setCtx c).heldRec = g.heldRec := by unfold Group.setCtx; split <;> rfl
@[simp] theorem setCtx_remainders (g : Group) (c : Ctx) : (g.setCtx c).remainders = g.remainders := by unfold Group.setCtx; split <;> rfl
@[simp] theorem setCtx_barLast (g : Group) (c : Ctx) : (g.setCtx c).barLast = g.barLast := by unfold Group.setCtx; split <;> rfl
@[simp] theorem setCtx_barAt (g : Group) (c : Ctx) : (g.setCtx c).barAt = g.barAt := by unfold Group.setCtx; split <;> rfl
@[simp] theorem setCtx_barPc (g : Group) (c : Ctx) : (g.setCtx c).barPc = g.barPc := by unfold Group.setCtx; split <;> rfl
@[simp] theorem setCtx_barW (g : Group) (c : Ctx) : (g.setCtx c).barW = g.barW := by unfold Group.setCtx; split <;> rfl
@[simp] theorem setCtx_barWaited (g : Group) (c : Ctx) : (g.setCtx c).barWaited = g.barWaited := by unfold Group.setCtx; split <;> rfl
@[simp] theorem setCtx_swAt (g : Group) (c : Ctx) : (g.setCtx c).swAt = g.swAt := by unfold Group.setCtx; split <;> rfl
@[simp] theorem setCtx_swDrain (g : Group) (c : Ctx) : (g.setCtx c).swDrain = g.swDrain := by unfold Group.setCtx; split <;> rfl
@[simp] theorem setCtx_lost (g : Group) (c : Ctx) : (g.setCtx c).lost = g.lost := by unfold Group.setCtx; split <;> rfl
@[simp] theorem setCtx_inJoin (g : Group) (c : Ctx) : (g.setCtx c).inJoin = g.inJoin := by unfold Group.setCtx; split <;> rfl
@[simp] theorem setCtx_exited (g : Group) (c : Ctx) : (g.setCtx c).exited = g.exited := by unfold Group.setCtx; split <;> rfl
@[simp] theorem setCtx_parkWhole (g : Group) (c : Ctx) : (g.setCtx c).parkWhole = g.parkWhole := by unfold Group.setCtx; split <;> rfl
@[simp] theorem setCtx_parkH (g : Group) (c : Ctx) : (g.setCtx c).parkH = g.parkH := by unfold Group.setCtx; split <;> rfl
@[simp] theorem setCtx_pageWait (g : Group) (c : Ctx) : (g.setCtx c).pageWait = g.pageWait := by unfold Group.setCtx; split <;> rfl
@[simp] theorem setCtx_asked (g : Group) (c : Ctx) : (g.setCtx c).asked = g.asked := by unfold Group.setCtx; split <;> rfl
@[simp] theorem setCtx_waitPeer (g : Group) (c : Ctx) : (g.setCtx c).waitPeer = g.waitPeer := by unfold Group.setCtx; split <;> rfl
@[simp] theorem setCtx_waitSince (g : Group) (c : Ctx) : (g.setCtx c).waitSince = g.waitSince := by unfold Group.setCtx; split <;> rfl
@[simp] theorem setCtx_waitLost (g : Group) (c : Ctx) : (g.setCtx c).waitLost = g.waitLost := by unfold Group.setCtx; split <;> rfl
@[simp] theorem setCtx_waitMesh (g : Group) (c : Ctx) : (g.setCtx c).waitMesh = g.waitMesh := by unfold Group.setCtx; split <;> rfl
@[simp] theorem setCtx_inval (g : Group) (c : Ctx) : (g.setCtx c).inval = g.inval := by unfold Group.setCtx; split <;> rfl
@[simp] theorem setCtx_invalFills (g : Group) (c : Ctx) : (g.setCtx c).invalFills = g.invalFills := by unfold Group.setCtx; split <;> rfl
@[simp] theorem setCtx_leaves (g : Group) (c : Ctx) : (g.setCtx c).leaves = g.leaves := by unfold Group.setCtx; split <;> rfl
@[simp] theorem setCtx_raw (g : Group) (c : Ctx) : (g.setCtx c).raw = g.raw := by unfold Group.setCtx; split <;> rfl
@[simp] theorem setCtx_given (g : Group) (c : Ctx) : (g.setCtx c).given = g.given := by unfold Group.setCtx; split <;> rfl
@[simp] theorem setCtx_stopS (g : Group) (c : Ctx) : (g.setCtx c).stopS = g.stopS := by unfold Group.setCtx; split <;> rfl
@[simp] theorem setCtx_stop0 (g : Group) (c : Ctx) : (g.setCtx c).stop0 = g.stop0 := by unfold Group.setCtx; split <;> rfl
@[simp] theorem setCtx_stop1 (g : Group) (c : Ctx) : (g.setCtx c).stop1 = g.stop1 := by unfold Group.setCtx; split <;> rfl
@[simp] theorem setCtx_lastStop (g : Group) (c : Ctx) : (g.setCtx c).lastStop = g.lastStop := by unfold Group.setCtx; split <;> rfl
@[simp] theorem setCtx_stalls (g : Group) (c : Ctx) : (g.setCtx c).stalls = g.stalls := by unfold Group.setCtx; split <;> rfl
@[simp] theorem setCtx_whyS (g : Group) (c : Ctx) : (g.setCtx c).whyS = g.whyS := by unfold Group.setCtx; split <;> rfl
@[simp] theorem setCtx_whyL (g : Group) (c : Ctx) : (g.setCtx c).whyL = g.whyL := by unfold Group.setCtx; split <;> rfl
@[simp] theorem setCtx_lastReason (g : Group) (c : Ctx) : (g.setCtx c).lastReason = g.lastReason := by unfold Group.setCtx; split <;> rfl
@[simp] theorem setCtx_issued (g : Group) (c : Ctx) : (g.setCtx c).issued = g.issued := by unfold Group.setCtx; split <;> rfl
@[simp] theorem setCtx_lastSlot (g : Group) (c : Ctx) : (g.setCtx c).lastSlot = g.lastSlot := by unfold Group.setCtx; split <;> rfl
@[simp] theorem setCtx_yielded (g : Group) (c : Ctx) : (g.setCtx c).yielded = g.yielded := by unfold Group.setCtx; split <;> rfl
/-! ### What an update writes -/

@[simp] theorem die_setDie (s : State) (n m : Nat) (x : Die) :
    (s.setDie n x).die m = if (n = 0 ↔ m = 0) then x else s.die m := by
  unfold State.setDie State.die
  by_cases hn : n = 0 <;> by_cases hm : m = 0 <;> simp [hn, hm]

@[simp] theorem ctx_setCtx (g : Group) (c : Ctx) : (g.setCtx c).ctx = c := by
  unfold Group.setCtx Group.ctx
  split <;> simp_all

theorem group?_uid {s : State} {u : Nat} {g : Group} (h : s.group? u = some g) : g.uid = u := by
  simpa using List.find?_some h

/-- A group that is there reads as it was replaced. -/
theorem group?_setGroup {s : State} {u : Nat} {g x : Group} (h : s.group? u = some x) (hu : g.uid = u) :
    (s.setGroup g).group? u = some g := by
  unfold State.group? State.setGroup at *
  simp only
  generalize s.groups = l at *
  induction l with
  | nil => simp at h
  | cons y t ih => by_cases hy : y.uid = u <;> simp_all

/-- Every other group is as before. -/
theorem group?_setGroup_ne {s : State} {u : Nat} {g : Group} (hu : g.uid ≠ u) :
    (s.setGroup g).group? u = s.group? u := by
  unfold State.group? State.setGroup
  simp only
  generalize s.groups = l
  induction l with
  | nil => rfl
  | cons y t ih => by_cases hy : y.uid = g.uid <;> by_cases hz : y.uid = u <;> simp_all

/-! ### Memories -/

/-- A memory written and read again. -/
theorem mem_setMem (s : State) {sp : Space} (m : Mem) (h : sp = .scene ∨ sp = .core ∨ sp = .bank ∨ sp = .sample) :
    (s.setMem sp m).mem sp = m := by
  rcases h with h | h | h | h <;> subst h <;> rfl

/-- The other memories are as before. -/
theorem mem_setMem_ne (s : State) {sp sq : Space} (m : Mem) (h : sq ≠ sp) : (s.setMem sp m).mem sq = s.mem sq := by
  cases sp <;> cases sq <;> simp_all [State.setMem, State.mem]

end Sys2Proof.Laws
end

