-- ==== Sys2Proof/Laws/Memory.lean ====
section
/-! SUPPORT. Laws of the sparse stores: a read after a write, and the canonical form that every operation keeps. -/

namespace Sys2Proof.Laws
open Sys2Proof.Machine

/-! ### One cell -/

theorem get_filter {n : Nat} (d : BitVec n) (m : Cells n) (p : Nat → Bool) (b : Nat) :
    Cells.get d (m.filter fun c => p c.1) b = if p b = true then Cells.get d m b else d := by
  induction m with
  | nil => simp [Cells.get]
  | cons c t ih => by_cases h : p c.1 = true <;> by_cases hb : b = c.1 <;> simp_all [Cells.get]

theorem get_erase {n : Nat} (d : BitVec n) (m : Cells n) (a b : Nat) :
    Cells.get d (m.erase a) b = if b = a then d else Cells.get d m b := by
  unfold Cells.erase
  rw [get_filter d m (fun k => k != a)]
  by_cases h : b = a <;> simp [h]

/-- A cell entered among cells of other keys is the one that is read. -/
theorem get_enter {n : Nat} (d : BitVec n) (m : Cells n) (a : Nat) (v : BitVec n) (b : Nat) (h : ∀ c ∈ m, c.1 ≠ a) :
    Cells.get d (m.enter a v) b = if b = a then v else Cells.get d m b := by
  induction m with
  | nil => simp [Cells.enter, Cells.get]
  | cons c t ih =>
    have h1 : c.1 ≠ a := h c (by simp)
    have h2 := ih fun x hx => h x (by simp [hx])
    unfold Cells.enter
    by_cases hc : a < c.1
    · rw [if_pos hc]
      simp [Cells.get]
    · rw [if_neg hc]
      by_cases hb : b = a <;> by_cases hk : b = c.1 <;> simp_all [Cells.get]

/-- A cell reads as it was written, and every other cell as before. -/
theorem get_set {n : Nat} (d : BitVec n) (m : Cells n) (a b : Nat) (v : BitVec n) :
    Cells.get d (Cells.set d m a v) b = if b = a then v else Cells.get d m b := by
  have h : ∀ c ∈ m.erase a, c.1 ≠ a := by
    intro c hc
    simpa using (List.mem_filter.mp hc).2
  unfold Cells.set
  split
  · rw [get_erase]
    split <;> simp_all
  · rw [get_enter d _ a v b h, get_erase]
    split <;> simp_all

/-- The same for another cell, whatever an unlisted one reads as. -/
theorem get_set_ne {n : Nat} (d e : BitVec n) (m : Cells n) {a b : Nat} (v : BitVec n) (h : b ≠ a) :
    Cells.get e (Cells.set d m a v) b = Cells.get e m b := by
  unfold Cells.set
  split
  · rw [get_erase, if_neg h]
  · rw [get_enter e _ a v b, if_neg h, get_erase, if_neg h]
    intro c hc
    simpa using (List.mem_filter.mp hc).2

/-! ### The canonical form -/

theorem wfFrom_mono {n : Nat} {d : Nat → BitVec n} {lo lo' : Nat} {m : Cells n} (h : Cells.wfFrom d lo m = true)
    (hl : lo' ≤ lo) : Cells.wfFrom d lo' m = true := by
  cases m with
  | nil => rfl
  | cons c t =>
    simp only [Cells.wfFrom, Bool.and_eq_true, decide_eq_true_eq] at h ⊢
    exact ⟨⟨Nat.le_trans hl h.1.1, h.1.2⟩, h.2⟩

theorem wfFrom_filter {n : Nat} {d : Nat → BitVec n} (p : Nat × BitVec n → Bool) {m : Cells n} :
    ∀ {lo : Nat}, Cells.wfFrom d lo m = true → Cells.wfFrom d lo (m.filter p) = true := by
  induction m with
  | nil => intro lo _; rfl
  | cons c t ih =>
    intro lo h
    simp only [Cells.wfFrom, Bool.and_eq_true, decide_eq_true_eq] at h
    cases hp : p c
    · simpa [hp] using wfFrom_mono (ih h.2) (by omega : lo ≤ c.1 + 1)
    · simp [hp, Cells.wfFrom, h.1.1, h.1.2, ih h.2]

theorem wfFrom_enter {n : Nat} {d : Nat → BitVec n} {a : Nat} {v : BitVec n} (hv : v ≠ d a) {m : Cells n} :
    ∀ {lo : Nat}, Cells.wfFrom d lo m = true → lo ≤ a → (∀ c ∈ m, c.1 ≠ a) → Cells.wfFrom d lo (m.enter a v) = true := by
  induction m with
  | nil => intro lo _ hl _; simp [Cells.enter, Cells.wfFrom, hl, hv]
  | cons c t ih =>
    intro lo h hl hm
    simp only [Cells.wfFrom, Bool.and_eq_true, decide_eq_true_eq] at h
    unfold Cells.enter
    split
    · rename_i hc
      simp [Cells.wfFrom, hl, hv, h.1.2, h.2]
      omega
    · rename_i hc
      have hne : c.1 ≠ a := hm c (by simp)
      simp [Cells.wfFrom, h.1.1, h.1.2]
      exact ih h.2 (by omega) fun x hx => hm x (by simp [hx])

/-- A write keeps the canonical form. -/
theorem wf_set {n : Nat} {d : Nat → BitVec n} {m : Cells n} (h : Cells.wf d m = true) (a : Nat) (v : BitVec n) :
    Cells.wf d (Cells.set (d a) m a v) = true := by
  unfold Cells.set Cells.wf at *
  split
  · exact wfFrom_filter _ h
  · refine wfFrom_enter ‹_› (wfFrom_filter _ h) (Nat.zero_le a) ?_
    intro c hc
    simpa using (List.mem_filter.mp hc).2

/-! ### Memories -/

@[simp] theorem wf_nil : Memory.wf [] = true := rfl

theorem byte_setByte (m : Mem) (a b : Nat) (v : Byte) :
    Mem.byte (Mem.setByte m a v) b = if b = a then v else Mem.byte m b := get_set 0 m a b v

theorem byte_clear (m : Mem) (a n b : Nat) :
    Mem.byte (Mem.clear m a n) b = if a ≤ b ∧ b < a + n then 0 else Mem.byte m b := by
  unfold Mem.clear Mem.byte
  rw [get_filter 0 m (fun k => decide (k < a) || decide (a + n ≤ k))]
  by_cases h : a ≤ b ∧ b < a + n
  · rw [if_neg, if_pos h]
    simp
    omega
  · rw [if_pos, if_neg h]
    simp
    omega

/-- Every memory operation keeps the canonical form. -/
theorem wf_setByte {m : Mem} (h : Memory.wf m = true) (a : Nat) (v : Byte) : Memory.wf (Mem.setByte m a v) = true :=
  wf_set (d := fun _ => 0) h a v

theorem wf_write {bs : List Byte} : ∀ {m : Mem} (_ : Memory.wf m = true) (a : Nat), Memory.wf (Mem.write m a bs) = true := by
  induction bs with
  | nil => intro m h a; exact h
  | cons b t ih => intro m h a; exact ih (wf_setByte h a b) (a + 1)

theorem wf_clear {m : Mem} (h : Memory.wf m = true) (a n : Nat) : Memory.wf (Mem.clear m a n) = true :=
  wfFrom_filter _ h

/-- The memories of a state are in canonical form. -/
def Canonical (s : State) : Prop := ∀ sp, Memory.wf (s.mem sp) = true

theorem canonical_setMem {s : State} (h : Canonical s) {sp : Space} {m : Mem} (hm : Memory.wf m = true) :
    Canonical (s.setMem sp m) := by
  intro sq
  by_cases hs : sq = sp
  · subst hs
    cases sq <;> first | exact hm | exact h _
  · rw [mem_setMem_ne s m hs]
    exact h sq

theorem canonical_writeMem {s : State} (h : Canonical s) (sp : Space) (a : Nat) (bs : List Byte) :
    Canonical (s.writeMem sp a bs) := by
  have := canonical_setMem h (sp := sp) (wf_write (h sp) a (bs := bs))
  intro sq
  have := this sq
  cases sq <;> exact this

theorem canonical_clearMem {s : State} (h : Canonical s) (sp : Space) (a n : Nat) : Canonical (s.clearMem sp a n) := by
  have := canonical_setMem h (sp := sp) (wf_clear (h sp) a n)
  intro sq
  have := this sq
  cases sq <;> exact this

theorem canonical_reset : Canonical State.reset := by
  intro sp
  cases sp <;> rfl

/-! ### Registers of the windows -/

/-- A register reads as it was written. -/
theorem reg_setReg (s : State) (die off : Nat) (v : Word) : (s.setReg die off v).reg die off = v := by
  unfold State.setReg State.reg
  simp [get_set]

/-- Registers at other places are as before. -/
theorem reg_setReg_ne (s : State) {die off d o : Nat} (v : Word) (h : mmioKey d o ≠ mmioKey die off) :
    (s.setReg die off v).reg d o = s.reg d o := by
  unfold State.setReg State.reg
  exact get_set_ne _ _ _ v h

end Sys2Proof.Laws
end

