-- ==== Sys2Proof/Laws/Issue.lean ====
section
/-! SUPPORT. What each shared operation of the instructions can do, said once: the issue of scalar, system and lane
instructions, waits for releases and matrix operations, ends of instructions, traps in handlers. -/

namespace Sys2Proof.Laws
open Sys2Proof.Machine Sys2Proof.Claims

/-! ### Registers -/

/-- No register lies outside the window exactly where all lie inside. -/
theorem uOut_none {g : Group} {regs : List Nat} : g.uOut regs = none ↔ ∀ r ∈ regs, r < g.ulimit := by
  simp [Group.uOut, List.find?_eq_none]

theorem uOut_some {g : Group} {regs : List Nat} {r : Nat} (h : g.uOut regs = some r) : r ∈ regs ∧ g.ulimit ≤ r :=
  ⟨List.mem_of_find?_eq_some h, by simpa [Group.uOut] using List.find?_some h⟩

/-! ### Scalar issue -/

/-- Nothing that an instruction reads can be uncorrectable where it reads no register. -/
@[simp] theorem badUni_nil (s : State) (g : Group) : s.badUni g [] = false := by simp [State.badUni]

/-- In a handler no read of a register is uncorrectable: its shadow registers are not checked. -/
theorem badUni_handler {g : Group} (h : g.mode ≠ .kernel) (s : State) (regs : List Nat) : s.badUni g regs = false := by
  simp [State.badUni, Group.inHandler, h]

/-- The scalar stream issues with its registers in the window and readable: the instruction's own effect and its end. -/
theorem issueScalarS_next {s : State} {c : Cur} {g : Group} {regs reads : List Nat} (h : Scalar s c g regs reads)
    (f : State → Group → State × Act) : issueScalarS s regs f reads = .next ((f s g).1.finish c g (f s g).2) := by
  simp [issueScalarS, h.cur, h.group, uOut_none.mpr h.window, h.clean]

theorem issueScalar_next {s : State} {c : Cur} {g : Group} {regs reads : List Nat} (h : Scalar s c g regs reads)
    (f : State → Group → Act) : issueScalar s regs f reads = .next (s.finish c g (f s g)) := issueScalarS_next h _

/-- Everything that a scalar issue can answer with a next state: a register outside the window or one that is uncorrectable traps,
or the instruction has its effect. -/
theorem issueScalarS_cases {s t : State} {regs reads : List Nat} {f : State → Group → State × Act}
    (h : issueScalarS s regs f reads = .next t) : ∃ c g, s.cur = some c ∧ s.group? c.group = some g ∧
      ((∃ r, g.uOut regs = some r ∧ t = s.finish c g (.trap .registerRange (word r) 0)) ∨
       (g.uOut regs = none ∧ s.badUni g reads = true ∧ t = s.finish c g (.fault .uncorrectable)) ∨
       (g.uOut regs = none ∧ s.badUni g reads = false ∧ t = (f s g).1.finish c g (f s g).2)) := by
  unfold issueScalarS at h
  split at h
  · cases h
  · rename_i c hc
    split at h
    · cases h
    · rename_i g hg
      refine ⟨c, g, hc, hg, ?_⟩
      split at h
      · rename_i r hr
        injection h with h
        exact .inl ⟨r, hr, h.symm⟩
      · rename_i hr
        split at h
        · rename_i hb
          injection h with h
          exact .inr (.inl ⟨hr, hb, h.symm⟩)
        · rename_i hb
          injection h with h
          exact .inr (.inr ⟨hr, by simpa using hb, h.symm⟩)

/-- The ends of a scalar instruction in words of the statements. -/
@[simp] theorem finish_adv (s : State) (c : Cur) (g0 g : Group) :
    s.finish c g0 (.adv g) = s.issued (g.setCtx { g.ctx with pc := g.ctx.pc + 4 }) 3 g0.ctx.pc.toNat := rfl
@[simp] theorem finish_jump (s : State) (c : Cur) (g0 g : Group) (pc : Word) :
    s.finish c g0 (.jump g pc) = s.issued (g.setCtx { g.ctx with pc := pc }) 3 g0.ctx.pc.toNat := rfl
@[simp] theorem finish_pair (s : State) (c : Cur) (g0 g : Group) (d : Reg) :
    s.finish c g0 (.pair g d.toNat) = pairDone s g0 d g := rfl
@[simp] theorem finish_wait (s : State) (c : Cur) (g0 g : Group) (why : Reason) :
    s.finish c g0 (.wait why g) = waits s g why := rfl
@[simp] theorem finish_trap (s : State) (c : Cur) (g0 : Group) (code : Code) (info : Word) (addr : Nat) :
    s.finish c g0 (.trap code info addr) = traps s c g0 code info addr := rfl
@[simp] theorem finish_deliver (s : State) (c : Cur) (g0 : Group) (d : Deferred) :
    s.finish c g0 (.deliver d) = delivers s g0 d := rfl
@[simp] theorem finish_stop (s : State) (c : Cur) (g0 : Group) : s.finish c g0 .stop = s := rfl

/-- A system instruction in kernel mode takes PRIVILEGED; in a handler it has its effect. -/
theorem issueSystem_kernel {s : State} {c : Cur} {g : Group} (h : Scalar s c g []) (hm : g.mode = .kernel)
    (regs : List Nat) (f : State → Group → State × Act) :
    issueSystem s regs f = .next (traps s c g .privileged 0 0) := by
  rw [issueSystem, issueScalarS_next h]
  simp [Group.inHandler, hm, Act.fault]

theorem issueSystem_handler {s : State} {c : Cur} {g : Group} {regs : List Nat} (h : Scalar s c g regs)
    (hm : g.mode ≠ .kernel) (f : State → Group → State × Act) :
    issueSystem s regs f = .next ((f s g).1.finish c g (f s g).2) := by
  have h0 : Scalar s c g [] := ⟨h.cur, h.group, by simp, by simp⟩
  rw [issueSystem, issueScalarS_next h0]
  simp [Group.inHandler, hm, uOut_none.mpr h.window]

/-- An instruction that a handler may not issue, in kernel mode and in a handler. -/
theorem kernelOnly_kernel {g : Group} {regs reads : List Nat} (hr : ∀ r ∈ regs, r < g.ulimit) (hm : g.mode = .kernel) (s : State)
    (hb : s.badUni g reads = false) (k : State × Act) : kernelOnly g regs s k reads = k := by
  simp [kernelOnly, uOut_none.mpr hr, Group.inHandler, hm, hb]

theorem kernelOnly_handler {g : Group} {regs reads : List Nat} (hr : ∀ r ∈ regs, r < g.ulimit) (hm : g.mode ≠ .kernel) (s : State)
    (k : State × Act) : kernelOnly g regs s k reads = (s, .fault .accessViolation) := by
  simp [kernelOnly, uOut_none.mpr hr, Group.inHandler, hm]

/-! ### Waits -/

/-- Where no deferred fault waits none is due. -/
theorem due_none {g : Group} (h : NoFault g) (p : Deferred → Bool) : g.due p = none := by
  have h' : g.deferred = [] := h
  simp [Group.due, h']

/-- A wait as `fence.rel`: each thing that it waits for, and what follows. -/
theorem asRel_lane {s : State} {g : Group} (h : g.ctx.laneIdle = false) (k : State × Act) : s.asRel g k = (s, .wait 9 g) := by
  simp [State.asRel, h]

theorem asRel_busy {s : State} {g : Group} (h : g.ctx.laneIdle = true) (hr : s.relDone g = false) (k : State × Act) :
    s.asRel g k = (s, .wait 8 g) := by
  simp [State.asRel, h, hr]

theorem asRel_done {s : State} {g : Group} (h : g.ctx.laneIdle = true) (hr : s.relDone g = true) (hn : NoFault g)
    (k : State × Act) : s.asRel g k = k := by
  simp [State.asRel, h, hr, due_none hn]

/-- A wait as `mwait`. -/
theorem asMwait_busy {s : State} {g : Group} (h : g.matrixDone = false) (k : State × Act) : s.asMwait g k = (s, .wait 10 g) := by
  simp [State.asMwait, h]

theorem asMwait_done {s : State} {g : Group} (h : g.matrixDone = true) (hn : NoFault g) (k : State × Act) :
    s.asMwait g k = k := by
  simp [State.asMwait, h, due_none hn]

/-! ### Lane issue -/

/-- A path issues with nothing that bars it: the instruction's own effect and its end. -/
theorem issueLaneS_next {s : State} {i : Instr} {c : Cur} {g : Group} {x : LaneIn} (h : LaneTurn s i c g x)
    (f : LaneIn → State × LAct) : issueLaneS s i f = .next ((f x).1.finishLane x (f x).2) := by
  obtain ⟨l, r, hl, hb, rfl⟩ := h.ready
  simp [issueLaneS, h.cur, h.group, hl, hb]

/-- Everything that a lane issue can answer with a next state. -/
theorem issueLaneS_cases {s t : State} {i : Instr} {f : LaneIn → State × LAct} (h : issueLaneS s i f = .next t) :
    ∃ c g l r, s.cur = some c ∧ s.group? c.group = some g ∧ i.laneRule = some (l, r) ∧
      ((∃ code mask info, s.barred g c.slot i l r = some (.trap code mask info) ∧
          t = s.raiseLane g c.slot c.word code mask info 0) ∨
       (∃ why, s.barred g c.slot i l r = some (.wait why) ∧ t = s.setGroup (g.waitL why)) ∨
       (∃ x, LaneTurn s i c g x ∧ t = (f x).1.finishLane x (f x).2)) := by
  unfold issueLaneS at h
  split at h
  · rename_i c l r hc hr
    split at h
    · cases h
    · rename_i g hg
      refine ⟨c, g, l, r, hc, hg, hr, ?_⟩
      split at h
      · rename_i code mask info hb
        injection h with h
        exact .inl ⟨code, mask, info, hb, h.symm⟩
      · rename_i why hb
        injection h with h
        exact .inr (.inl ⟨why, hb, h.symm⟩)
      · rename_i hb
        injection h with h
        exact .inr (.inr ⟨_, ⟨hc, hg, l, r, hr, hb, rfl⟩, h.symm⟩)
  · cases h

@[simp] theorem finishLane_wait (s : State) (x : LaneIn) (why : Reason) :
    s.finishLane x (.wait why) = s.setGroup (x.g0.waitL why) := rfl
@[simp] theorem finishLane_trap (s : State) (x : LaneIn) (code : Code) (mask info : Word) (addr : Nat) :
    s.finishLane x (.trap code mask info addr) = laneTraps s x code mask info addr := rfl
@[simp] theorem finishLane_stop (s : State) (x : LaneIn) : s.finishLane x .stop = s := rfl

/-! ### Traps -/

/-- A trap in a handler is nested where the handled mask has its code, and ends the grid where it has not; at the second depth it
ends the grid. -/
theorem raise_handler {s : State} {g : Group} (h : g.mode = .handler) (n : Nat) (t : Trap) :
    s.raise g n t =
      if (s.gridOf g).vector.handles t.code then s.setGroup ((g.consume t).enterNested (s.gridOf g).vector t)
      else s.unhandled g t := by
  simp [State.raise, h]

theorem raise_nested {s : State} {g : Group} (h : g.mode = .nested) (n : Nat) (t : Trap) :
    s.raise g n t = s.terminateGrid (s.gridOf g) 3 0xFF := by
  simp [State.raise, h]

end Sys2Proof.Laws
end

