-- ==== Sys2Proof/Laws/PerInstr.lean ====
section
/-! SUPPORT. Facts about every instruction as syntax, one lemma per constructor. -/

namespace Sys2Proof.Laws.Streams

/-- An instruction has a word in at most one of the two streams, and one with a rule of lane operands has a lane word (R119, R124). -/
def Statement (i : Instr) : Prop :=
  (encodeScalar i = none ∨ encodeLane i = none) ∧ (i.laneRule.isSome = true → (encodeLane i).isSome = true)

theorem add : ∀ a b c d, Statement (.add a b c d) := fun _ _ _ _ => ⟨.inr rfl, fun h => nomatch h⟩
theorem sub : ∀ a b c d, Statement (.sub a b c d) := fun _ _ _ _ => ⟨.inr rfl, fun h => nomatch h⟩
theorem mul : ∀ a b c d, Statement (.mul a b c d) := fun _ _ _ _ => ⟨.inr rfl, fun h => nomatch h⟩
theorem mulh : ∀ a b c, Statement (.mulh a b c) := fun _ _ _ => ⟨.inr rfl, fun h => nomatch h⟩
theorem mulhn : ∀ a b c, Statement (.mulhn a b c) := fun _ _ _ => ⟨.inr rfl, fun h => nomatch h⟩
theorem divi : ∀ a b c, Statement (.divi a b c) := fun _ _ _ => ⟨.inr rfl, fun h => nomatch h⟩
theorem divn : ∀ a b c, Statement (.divn a b c) := fun _ _ _ => ⟨.inr rfl, fun h => nomatch h⟩
theorem remi : ∀ a b c, Statement (.remi a b c) := fun _ _ _ => ⟨.inr rfl, fun h => nomatch h⟩
theorem remn : ∀ a b c, Statement (.remn a b c) := fun _ _ _ => ⟨.inr rfl, fun h => nomatch h⟩
theorem and : ∀ a b c d, Statement (.and a b c d) := fun _ _ _ _ => ⟨.inr rfl, fun h => nomatch h⟩
theorem or : ∀ a b c d, Statement (.or a b c d) := fun _ _ _ _ => ⟨.inr rfl, fun h => nomatch h⟩
theorem xor : ∀ a b c d, Statement (.xor a b c d) := fun _ _ _ _ => ⟨.inr rfl, fun h => nomatch h⟩
theorem andn : ∀ a b c d, Statement (.andn a b c d) := fun _ _ _ _ => ⟨.inr rfl, fun h => nomatch h⟩
theorem shl : ∀ a b c d, Statement (.shl a b c d) := fun _ _ _ _ => ⟨.inr rfl, fun h => nomatch h⟩
theorem shr : ∀ a b c d, Statement (.shr a b c d) := fun _ _ _ _ => ⟨.inr rfl, fun h => nomatch h⟩
theorem sar : ∀ a b c d, Statement (.sar a b c d) := fun _ _ _ _ => ⟨.inr rfl, fun h => nomatch h⟩
theorem rotl : ∀ a b c d, Statement (.rotl a b c d) := fun _ _ _ _ => ⟨.inr rfl, fun h => nomatch h⟩
theorem min : ∀ a b c d, Statement (.min a b c d) := fun _ _ _ _ => ⟨.inr rfl, fun h => nomatch h⟩
theorem minn : ∀ a b c d, Statement (.minn a b c d) := fun _ _ _ _ => ⟨.inr rfl, fun h => nomatch h⟩
theorem max : ∀ a b c d, Statement (.max a b c d) := fun _ _ _ _ => ⟨.inr rfl, fun h => nomatch h⟩
theorem maxn : ∀ a b c d, Statement (.maxn a b c d) := fun _ _ _ _ => ⟨.inr rfl, fun h => nomatch h⟩
theorem clz : ∀ a b c, Statement (.clz a b c) := fun _ _ _ => ⟨.inr rfl, fun h => nomatch h⟩
theorem ctz : ∀ a b c, Statement (.ctz a b c) := fun _ _ _ => ⟨.inr rfl, fun h => nomatch h⟩
theorem popc : ∀ a b c, Statement (.popc a b c) := fun _ _ _ => ⟨.inr rfl, fun h => nomatch h⟩
theorem sext : ∀ a b c d, Statement (.sext a b c d) := fun _ _ _ _ => ⟨.inr rfl, fun h => nomatch h⟩
theorem zext : ∀ a b c d, Statement (.zext a b c d) := fun _ _ _ _ => ⟨.inr rfl, fun h => nomatch h⟩
theorem cmp : ∀ a b c d, Statement (.cmp a b c d) := fun _ _ _ _ => ⟨.inr rfl, fun h => nomatch h⟩
theorem qand : ∀ a b c, Statement (.qand a b c) := fun _ _ _ => ⟨.inr rfl, fun h => nomatch h⟩
theorem qor : ∀ a b c, Statement (.qor a b c) := fun _ _ _ => ⟨.inr rfl, fun h => nomatch h⟩
theorem qxor : ∀ a b c, Statement (.qxor a b c) := fun _ _ _ => ⟨.inr rfl, fun h => nomatch h⟩
theorem qandn : ∀ a b c, Statement (.qandn a b c) := fun _ _ _ => ⟨.inr rfl, fun h => nomatch h⟩
theorem qnot : ∀ a b, Statement (.qnot a b) := fun _ _ => ⟨.inr rfl, fun h => nomatch h⟩
theorem qget : ∀ a, Statement (.qget a) := fun _ => ⟨.inr rfl, fun h => nomatch h⟩
theorem qset : ∀ a, Statement (.qset a) := fun _ => ⟨.inr rfl, fun h => nomatch h⟩
theorem sel : ∀ a b c d e, Statement (.sel a b c d e) := fun _ _ _ _ _ => ⟨.inr rfl, fun h => nomatch h⟩
theorem mov : ∀ a b c, Statement (.mov a b c) := fun _ _ _ => ⟨.inr rfl, fun h => nomatch h⟩
theorem srd : ∀ a b, Statement (.srd a b) := fun _ _ => ⟨.inr rfl, fun h => nomatch h⟩
theorem addi : ∀ a b c, Statement (.addi a b c) := fun _ _ _ => ⟨.inr rfl, fun h => nomatch h⟩
theorem andi : ∀ a b c, Statement (.andi a b c) := fun _ _ _ => ⟨.inr rfl, fun h => nomatch h⟩
theorem ori : ∀ a b c, Statement (.ori a b c) := fun _ _ _ => ⟨.inr rfl, fun h => nomatch h⟩
theorem xori : ∀ a b c, Statement (.xori a b c) := fun _ _ _ => ⟨.inr rfl, fun h => nomatch h⟩
theorem shli : ∀ a b c, Statement (.shli a b c) := fun _ _ _ => ⟨.inr rfl, fun h => nomatch h⟩
theorem shri : ∀ a b c, Statement (.shri a b c) := fun _ _ _ => ⟨.inr rfl, fun h => nomatch h⟩
theorem sari : ∀ a b c, Statement (.sari a b c) := fun _ _ _ => ⟨.inr rfl, fun h => nomatch h⟩
theorem cmpi : ∀ a b c d, Statement (.cmpi a b c d) := fun _ _ _ _ => ⟨.inr rfl, fun h => nomatch h⟩
theorem movi : ∀ a b, Statement (.movi a b) := fun _ _ => ⟨.inr rfl, fun h => nomatch h⟩
theorem movhi : ∀ a b, Statement (.movhi a b) := fun _ _ => ⟨.inr rfl, fun h => nomatch h⟩
theorem gmov : ∀ a b, Statement (.gmov a b) := fun _ _ => ⟨.inr rfl, fun h => nomatch h⟩
theorem ldB : ∀ a b c d, Statement (.ldB a b c d) := fun _ _ _ _ => ⟨.inr rfl, fun h => nomatch h⟩
theorem ldBn : ∀ a b c d, Statement (.ldBn a b c d) := fun _ _ _ _ => ⟨.inr rfl, fun h => nomatch h⟩
theorem ldH : ∀ a b c d, Statement (.ldH a b c d) := fun _ _ _ _ => ⟨.inr rfl, fun h => nomatch h⟩
theorem ldHn : ∀ a b c d, Statement (.ldHn a b c d) := fun _ _ _ _ => ⟨.inr rfl, fun h => nomatch h⟩
theorem ldW : ∀ a b c d, Statement (.ldW a b c d) := fun _ _ _ _ => ⟨.inr rfl, fun h => nomatch h⟩
theorem ldD : ∀ a b c d, Statement (.ldD a b c d) := fun _ _ _ _ => ⟨.inr rfl, fun h => nomatch h⟩
theorem stB : ∀ a b c d, Statement (.stB a b c d) := fun _ _ _ _ => ⟨.inr rfl, fun h => nomatch h⟩
theorem stH : ∀ a b c d, Statement (.stH a b c d) := fun _ _ _ _ => ⟨.inr rfl, fun h => nomatch h⟩
theorem stW : ∀ a b c d, Statement (.stW a b c d) := fun _ _ _ _ => ⟨.inr rfl, fun h => nomatch h⟩
theorem stD : ∀ a b c d, Statement (.stD a b c d) := fun _ _ _ _ => ⟨.inr rfl, fun h => nomatch h⟩
theorem atom : ∀ a b c d e, Statement (.atom a b c d e) := fun _ _ _ _ _ => ⟨.inr rfl, fun h => nomatch h⟩
theorem jmp : ∀ a, Statement (.jmp a) := fun _ => ⟨.inr rfl, fun h => nomatch h⟩
theorem bq : ∀ a b c, Statement (.bq a b c) := fun _ _ _ => ⟨.inr rfl, fun h => nomatch h⟩
theorem call : ∀ a, Statement (.call a) := fun _ => ⟨.inr rfl, fun h => nomatch h⟩
theorem jr : ∀ a, Statement (.jr a) := fun _ => ⟨.inr rfl, fun h => nomatch h⟩
theorem loop : ∀ a b, Statement (.loop a b) := fun _ _ => ⟨.inr rfl, fun h => nomatch h⟩
theorem lrun : ∀ a, Statement (.lrun a) := fun _ => ⟨.inr rfl, fun h => nomatch h⟩
theorem lrunx : ∀ a b, Statement (.lrunx a b) := fun _ _ => ⟨.inr rfl, fun h => nomatch h⟩
theorem fwait : ∀ a, Statement (.fwait a) := fun _ => ⟨.inr rfl, fun h => nomatch h⟩
theorem waitp : ∀ a b, Statement (.waitp a b) := fun _ _ => ⟨.inr rfl, fun h => nomatch h⟩
theorem waitz : ∀ a, Statement (.waitz a) := fun _ => ⟨.inr rfl, fun h => nomatch h⟩
theorem bar : ∀ a b, Statement (.bar a b) := fun _ _ => ⟨.inr rfl, fun h => nomatch h⟩
theorem bara : ∀ a b, Statement (.bara a b) := fun _ _ => ⟨.inr rfl, fun h => nomatch h⟩
theorem barw : ∀ a, Statement (.barw a) := fun _ => ⟨.inr rfl, fun h => nomatch h⟩
theorem swpt : ∀ a, Statement (.swpt a) := fun _ => ⟨.inr rfl, fun h => nomatch h⟩
theorem ckick : ∀ a b, Statement (.ckick a b) := fun _ _ => ⟨.inr rfl, fun h => nomatch h⟩
theorem ccancel : ∀ a, Statement (.ccancel a) := fun _ => ⟨.inr rfl, fun h => nomatch h⟩
theorem launch : ∀ a, Statement (.launch a) := fun _ => ⟨.inr rfl, fun h => nomatch h⟩
theorem join : ∀ a, Statement (.join a) := fun _ => ⟨.inr rfl, fun h => nomatch h⟩
theorem xsig : ∀ a, Statement (.xsig a) := fun _ => ⟨.inr rfl, fun h => nomatch h⟩
theorem xwait : ∀ a, Statement (.xwait a) := fun _ => ⟨.inr rfl, fun h => nomatch h⟩
theorem mma : ∀ a b c, Statement (.mma a b c) := fun _ _ _ => ⟨.inr rfl, fun h => nomatch h⟩
theorem mqt : ∀ a b, Statement (.mqt a b) := fun _ _ => ⟨.inr rfl, fun h => nomatch h⟩
theorem mzero : ∀ a b, Statement (.mzero a b) := fun _ _ => ⟨.inr rfl, fun h => nomatch h⟩
theorem mtld : ∀ a b c, Statement (.mtld a b c) := fun _ _ _ => ⟨.inr rfl, fun h => nomatch h⟩
theorem mtst : ∀ a b c, Statement (.mtst a b c) := fun _ _ _ => ⟨.inr rfl, fun h => nomatch h⟩
theorem mfifoClaim : ∀ a b c, Statement (.mfifoClaim a b c) := fun _ _ _ => ⟨.inr rfl, fun h => nomatch h⟩
theorem mfifoRelease : ∀ a, Statement (.mfifoRelease a) := fun _ => ⟨.inr rfl, fun h => nomatch h⟩
theorem mfifoHead : ∀ a b, Statement (.mfifoHead a b) := fun _ _ => ⟨.inr rfl, fun h => nomatch h⟩
theorem mfifoSethead : ∀ a b, Statement (.mfifoSethead a b) := fun _ _ => ⟨.inr rfl, fun h => nomatch h⟩
theorem dkey : ∀ a b, Statement (.dkey a b) := fun _ _ => ⟨.inr rfl, fun h => nomatch h⟩
theorem ddraw : ∀ a b c d, Statement (.ddraw a b c d) := fun _ _ _ _ => ⟨.inr rfl, fun h => nomatch h⟩
theorem dpos : ∀ a b c, Statement (.dpos a b c) := fun _ _ _ => ⟨.inr rfl, fun h => nomatch h⟩
theorem xband : ∀ a b, Statement (.xband a b) := fun _ _ => ⟨.inr rfl, fun h => nomatch h⟩
theorem waitm : ∀ a b, Statement (.waitm a b) := fun _ _ => ⟨.inr rfl, fun h => nomatch h⟩
theorem trap : ∀ a, Statement (.trap a) := fun _ => ⟨.inr rfl, fun h => nomatch h⟩
theorem eretTerm : ∀ a, Statement (.eretTerm a) := fun _ => ⟨.inr rfl, fun h => nomatch h⟩
theorem prd : ∀ a b c, Statement (.prd a b c) := fun _ _ _ => ⟨.inr rfl, fun h => nomatch h⟩
theorem pwr : ∀ a b c, Statement (.pwr a b c) := fun _ _ _ => ⟨.inr rfl, fun h => nomatch h⟩
theorem brk : ∀ a, Statement (.brk a) := fun _ => ⟨.inr rfl, fun h => nomatch h⟩
theorem tlbinv : ∀ a b, Statement (.tlbinv a b) := fun _ _ => ⟨.inr rfl, fun h => nomatch h⟩
theorem clauseStart : ∀ a, Statement (.clauseStart a) := fun _ => ⟨.inl rfl, fun _ => rfl⟩
theorem laneBlockStart : ∀ a, Statement (.laneBlockStart a) := fun _ => ⟨.inl rfl, fun h => nomatch h⟩
theorem vadd : ∀ a, Statement (.vadd a) := fun _ => ⟨.inl rfl, fun _ => rfl⟩
theorem vsub : ∀ a, Statement (.vsub a) := fun _ => ⟨.inl rfl, fun _ => rfl⟩
theorem vmul : ∀ a, Statement (.vmul a) := fun _ => ⟨.inl rfl, fun _ => rfl⟩
theorem vmulh : ∀ a, Statement (.vmulh a) := fun _ => ⟨.inl rfl, fun _ => rfl⟩
theorem vmad : ∀ a, Statement (.vmad a) := fun _ => ⟨.inl rfl, fun _ => rfl⟩
theorem vabs : ∀ a, Statement (.vabs a) := fun _ => ⟨.inl rfl, fun _ => rfl⟩
theorem vneg : ∀ a, Statement (.vneg a) := fun _ => ⟨.inl rfl, fun _ => rfl⟩
theorem vmin : ∀ a, Statement (.vmin a) := fun _ => ⟨.inl rfl, fun _ => rfl⟩
theorem vmax : ∀ a, Statement (.vmax a) := fun _ => ⟨.inl rfl, fun _ => rfl⟩
theorem vand : ∀ a, Statement (.vand a) := fun _ => ⟨.inl rfl, fun _ => rfl⟩
theorem vor : ∀ a, Statement (.vor a) := fun _ => ⟨.inl rfl, fun _ => rfl⟩
theorem vxor : ∀ a, Statement (.vxor a) := fun _ => ⟨.inl rfl, fun _ => rfl⟩
theorem vnot : ∀ a, Statement (.vnot a) := fun _ => ⟨.inl rfl, fun _ => rfl⟩
theorem vandn : ∀ a, Statement (.vandn a) := fun _ => ⟨.inl rfl, fun _ => rfl⟩
theorem vshl : ∀ a, Statement (.vshl a) := fun _ => ⟨.inl rfl, fun _ => rfl⟩
theorem vshr : ∀ a, Statement (.vshr a) := fun _ => ⟨.inl rfl, fun _ => rfl⟩
theorem vsar : ∀ a, Statement (.vsar a) := fun _ => ⟨.inl rfl, fun _ => rfl⟩
theorem vrotl : ∀ a, Statement (.vrotl a) := fun _ => ⟨.inl rfl, fun _ => rfl⟩
theorem vclz : ∀ a, Statement (.vclz a) := fun _ => ⟨.inl rfl, fun _ => rfl⟩
theorem vpopc : ∀ a, Statement (.vpopc a) := fun _ => ⟨.inl rfl, fun _ => rfl⟩
theorem vbrev : ∀ a, Statement (.vbrev a) := fun _ => ⟨.inl rfl, fun _ => rfl⟩
theorem vbfe : ∀ a, Statement (.vbfe a) := fun _ => ⟨.inl rfl, fun _ => rfl⟩
theorem vbfi : ∀ a, Statement (.vbfi a) := fun _ => ⟨.inl rfl, fun _ => rfl⟩
theorem vaddc : ∀ a, Statement (.vaddc a) := fun _ => ⟨.inl rfl, fun _ => rfl⟩
theorem vsubb : ∀ a, Statement (.vsubb a) := fun _ => ⟨.inl rfl, fun _ => rfl⟩
theorem vsad : ∀ a, Statement (.vsad a) := fun _ => ⟨.inl rfl, fun _ => rfl⟩
theorem vdp4 : ∀ a, Statement (.vdp4 a) := fun _ => ⟨.inl rfl, fun _ => rfl⟩
theorem vcmp : ∀ a, Statement (.vcmp a) := fun _ => ⟨.inl rfl, fun _ => rfl⟩
theorem vpop : ∀ a, Statement (.vpop a) := fun _ => ⟨.inl rfl, fun _ => rfl⟩
theorem vsel : ∀ a, Statement (.vsel a) := fun _ => ⟨.inl rfl, fun _ => rfl⟩
theorem vfadd : ∀ a, Statement (.vfadd a) := fun _ => ⟨.inl rfl, fun _ => rfl⟩
theorem vfsub : ∀ a, Statement (.vfsub a) := fun _ => ⟨.inl rfl, fun _ => rfl⟩
theorem vfmul : ∀ a, Statement (.vfmul a) := fun _ => ⟨.inl rfl, fun _ => rfl⟩
theorem vfma : ∀ a, Statement (.vfma a) := fun _ => ⟨.inl rfl, fun _ => rfl⟩
theorem vfmin : ∀ a, Statement (.vfmin a) := fun _ => ⟨.inl rfl, fun _ => rfl⟩
theorem vfmax : ∀ a, Statement (.vfmax a) := fun _ => ⟨.inl rfl, fun _ => rfl⟩
theorem vfrnd : ∀ a, Statement (.vfrnd a) := fun _ => ⟨.inl rfl, fun _ => rfl⟩
theorem vfrac : ∀ a, Statement (.vfrac a) := fun _ => ⟨.inl rfl, fun _ => rfl⟩
theorem vdot2 : ∀ a, Statement (.vdot2 a) := fun _ => ⟨.inl rfl, fun _ => rfl⟩
theorem vfscl : ∀ a, Statement (.vfscl a) := fun _ => ⟨.inl rfl, fun _ => rfl⟩
theorem vfcmp : ∀ a, Statement (.vfcmp a) := fun _ => ⟨.inl rfl, fun _ => rfl⟩
theorem vclass : ∀ a, Statement (.vclass a) := fun _ => ⟨.inl rfl, fun _ => rfl⟩
theorem vrcp : ∀ a, Statement (.vrcp a) := fun _ => ⟨.inl rfl, fun _ => rfl⟩
theorem vrsq : ∀ a, Statement (.vrsq a) := fun _ => ⟨.inl rfl, fun _ => rfl⟩
theorem vsqrt : ∀ a, Statement (.vsqrt a) := fun _ => ⟨.inl rfl, fun _ => rfl⟩
theorem vexp2 : ∀ a, Statement (.vexp2 a) := fun _ => ⟨.inl rfl, fun _ => rfl⟩
theorem vlog2 : ∀ a, Statement (.vlog2 a) := fun _ => ⟨.inl rfl, fun _ => rfl⟩
theorem vsin : ∀ a, Statement (.vsin a) := fun _ => ⟨.inl rfl, fun _ => rfl⟩
theorem vcos : ∀ a, Statement (.vcos a) := fun _ => ⟨.inl rfl, fun _ => rfl⟩
theorem vtanh : ∀ a, Statement (.vtanh a) := fun _ => ⟨.inl rfl, fun _ => rfl⟩
theorem vcvt : ∀ a, Statement (.vcvt a) := fun _ => ⟨.inl rfl, fun _ => rfl⟩
theorem vpack : ∀ a, Statement (.vpack a) := fun _ => ⟨.inl rfl, fun _ => rfl⟩
theorem vunpk : ∀ a, Statement (.vunpk a) := fun _ => ⟨.inl rfl, fun _ => rfl⟩
theorem vquant : ∀ a, Statement (.vquant a) := fun _ => ⟨.inl rfl, fun _ => rfl⟩
theorem vquantScale : ∀ a, Statement (.vquantScale a) := fun _ => ⟨.inl rfl, fun _ => rfl⟩
theorem vmov : ∀ a, Statement (.vmov a) := fun _ => ⟨.inl rfl, fun _ => rfl⟩
theorem vmovi : ∀ a, Statement (.vmovi a) := fun _ => ⟨.inl rfl, fun _ => rfl⟩
theorem vsrd : ∀ a, Statement (.vsrd a) := fun _ => ⟨.inl rfl, fun _ => rfl⟩
theorem vshfl : ∀ a, Statement (.vshfl a) := fun _ => ⟨.inl rfl, fun _ => rfl⟩
theorem vred : ∀ a, Statement (.vred a) := fun _ => ⟨.inl rfl, fun _ => rfl⟩
theorem vscan : ∀ a, Statement (.vscan a) := fun _ => ⟨.inl rfl, fun _ => rfl⟩
theorem vballot : ∀ a, Statement (.vballot a) := fun _ => ⟨.inl rfl, fun _ => rfl⟩
theorem vfirst : ∀ a, Statement (.vfirst a) := fun _ => ⟨.inl rfl, fun _ => rfl⟩
theorem collectiveWrite : ∀ a b, Statement (.collectiveWrite a b) := fun _ _ => ⟨.inl rfl, fun h => nomatch h⟩
theorem vld : ∀ a, Statement (.vld a) := fun _ => ⟨.inl rfl, fun _ => rfl⟩
theorem vst : ∀ a, Statement (.vst a) := fun _ => ⟨.inl rfl, fun _ => rfl⟩
theorem vatom : ∀ a, Statement (.vatom a) := fun _ => ⟨.inl rfl, fun _ => rfl⟩
theorem vmred : ∀ a, Statement (.vmred a) := fun _ => ⟨.inl rfl, fun _ => rfl⟩
theorem vprf : ∀ a, Statement (.vprf a) := fun _ => ⟨.inl rfl, fun _ => rfl⟩
theorem vbr : ∀ a, Statement (.vbr a) := fun _ => ⟨.inl rfl, fun _ => rfl⟩
theorem vbrx : ∀ a, Statement (.vbrx a) := fun _ => ⟨.inl rfl, fun _ => rfl⟩
theorem vend : ∀ a, Statement (.vend a) := fun _ => ⟨.inl rfl, fun _ => rfl⟩
theorem vexit : ∀ a, Statement (.vexit a) := fun _ => ⟨.inl rfl, fun _ => rfl⟩
theorem vnop : ∀ a, Statement (.vnop a) := fun _ => ⟨.inl rfl, fun _ => rfl⟩
theorem vfeed : ∀ a, Statement (.vfeed a) := fun _ => ⟨.inl rfl, fun _ => rfl⟩
theorem vaccr : ∀ a, Statement (.vaccr a) := fun _ => ⟨.inl rfl, fun _ => rfl⟩
theorem vaccw : ∀ a, Statement (.vaccw a) := fun _ => ⟨.inl rfl, fun _ => rfl⟩
theorem vsamp : ∀ a, Statement (.vsamp a) := fun _ => ⟨.inl rfl, fun _ => rfl⟩
theorem vtrace : ∀ a, Statement (.vtrace a) := fun _ => ⟨.inl rfl, fun _ => rfl⟩
theorem vprobe : ∀ a, Statement (.vprobe a) := fun _ => ⟨.inl rfl, fun _ => rfl⟩
theorem vtex : ∀ a, Statement (.vtex a) := fun _ => ⟨.inl rfl, fun _ => rfl⟩
theorem vsgat : ∀ a, Statement (.vsgat a) := fun _ => ⟨.inl rfl, fun _ => rfl⟩
theorem vrowpk : ∀ a, Statement (.vrowpk a) := fun _ => ⟨.inl rfl, fun _ => rfl⟩
theorem accessReturn : ∀ a b, Statement (.accessReturn a b) := fun _ _ => ⟨.inl rfl, fun h => nomatch h⟩
theorem sliceAccessArrival : ∀ a b, Statement (.sliceAccessArrival a b) := fun _ _ => ⟨.inl rfl, fun h => nomatch h⟩
theorem peerAccessArrival : ∀ a b, Statement (.peerAccessArrival a b) := fun _ _ => ⟨.inl rfl, fun h => nomatch h⟩
theorem pageWalk : ∀ a, Statement (.pageWalk a) := fun _ => ⟨.inl rfl, fun h => nomatch h⟩
theorem copyRequestStart : ∀ a b, Statement (.copyRequestStart a b) := fun _ _ => ⟨.inl rfl, fun h => nomatch h⟩
theorem copyChunkLanding : ∀ a, Statement (.copyChunkLanding a) := fun _ => ⟨.inl rfl, fun h => nomatch h⟩
theorem copyRequestEnd : ∀ a, Statement (.copyRequestEnd a) := fun _ => ⟨.inl rfl, fun h => nomatch h⟩
theorem mmaComplete : ∀ a b, Statement (.mmaComplete a b) := fun _ _ => ⟨.inl rfl, fun h => nomatch h⟩
theorem matrixTransferComplete : ∀ a b, Statement (.matrixTransferComplete a b) := fun _ _ => ⟨.inl rfl, fun h => nomatch h⟩
theorem vfeedComplete : ∀ a b, Statement (.vfeedComplete a b) := fun _ _ => ⟨.inl rfl, fun h => nomatch h⟩
theorem mqtComplete : ∀ a b, Statement (.mqtComplete a b) := fun _ _ => ⟨.inl rfl, fun h => nomatch h⟩
theorem engineCommandComplete : ∀ a b, Statement (.engineCommandComplete a b) := fun _ _ => ⟨.inl rfl, fun h => nomatch h⟩
theorem vsgatDelivery : ∀ a b, Statement (.vsgatDelivery a b) := fun _ _ => ⟨.inl rfl, fun h => nomatch h⟩
theorem vsampForward : ∀ a, Statement (.vsampForward a) := fun _ => ⟨.inl rfl, fun h => nomatch h⟩
theorem ddrawComplete : ∀ a b, Statement (.ddrawComplete a b) := fun _ _ => ⟨.inl rfl, fun h => nomatch h⟩
theorem dposRoundComplete : ∀ a b, Statement (.dposRoundComplete a b) := fun _ _ => ⟨.inl rfl, fun h => nomatch h⟩
theorem codeFetchFill : ∀ a, Statement (.codeFetchFill a) := fun _ => ⟨.inl rfl, fun h => nomatch h⟩
theorem trapEntry : ∀ a, Statement (.trapEntry a) := fun _ => ⟨.inl rfl, fun h => nomatch h⟩
theorem breakpointMatch : ∀ a b, Statement (.breakpointMatch a b) := fun _ _ => ⟨.inl rfl, fun h => nomatch h⟩
theorem saveTimeout : ∀ a, Statement (.saveTimeout a) := fun _ => ⟨.inl rfl, fun h => nomatch h⟩
theorem restoreTimeout : ∀ a, Statement (.restoreTimeout a) := fun _ => ⟨.inl rfl, fun h => nomatch h⟩
theorem unitPlacement : ∀ a, Statement (.unitPlacement a) := fun _ => ⟨.inl rfl, fun h => nomatch h⟩
theorem switchRequestExpiry : ∀ a, Statement (.switchRequestExpiry a) := fun _ => ⟨.inl rfl, fun h => nomatch h⟩
theorem blockPark : ∀ a, Statement (.blockPark a) := fun _ => ⟨.inl rfl, fun h => nomatch h⟩
theorem blockRetirement : ∀ a, Statement (.blockRetirement a) := fun _ => ⟨.inl rfl, fun h => nomatch h⟩
theorem gridCompletion : ∀ a, Statement (.gridCompletion a) := fun _ => ⟨.inl rfl, fun h => nomatch h⟩
theorem coalesceTimerExpiry : ∀ a b, Statement (.coalesceTimerExpiry a b) := fun _ _ => ⟨.inl rfl, fun h => nomatch h⟩
theorem packetCoreStep : ∀ a, Statement (.packetCoreStep a) := fun _ => ⟨.inl rfl, fun h => nomatch h⟩
theorem dispatchPacket : ∀ a b, Statement (.dispatchPacket a b) := fun _ _ => ⟨.inl rfl, fun h => nomatch h⟩
theorem signalPacket : ∀ a b, Statement (.signalPacket a b) := fun _ _ => ⟨.inl rfl, fun h => nomatch h⟩
theorem waitPacket : ∀ a b, Statement (.waitPacket a b) := fun _ _ => ⟨.inl rfl, fun h => nomatch h⟩
theorem nopPacket : ∀ a b, Statement (.nopPacket a b) := fun _ _ => ⟨.inl rfl, fun h => nomatch h⟩
theorem profileSample : ∀ a, Statement (.profileSample a) := fun _ => ⟨.inl rfl, fun h => nomatch h⟩
theorem barrierWatchdogExpiry : ∀ a b, Statement (.barrierWatchdogExpiry a b) := fun _ _ => ⟨.inl rfl, fun h => nomatch h⟩
theorem egressBandRead : ∀ a, Statement (.egressBandRead a) := fun _ => ⟨.inl rfl, fun h => nomatch h⟩
theorem sliceTransmit : ∀ a, Statement (.sliceTransmit a) := fun _ => ⟨.inl rfl, fun h => nomatch h⟩
theorem bandDeadlineExpiry : ∀ a, Statement (.bandDeadlineExpiry a) := fun _ => ⟨.inl rfl, fun h => nomatch h⟩
theorem powerStateEntry : ∀ a, Statement (.powerStateEntry a) := fun _ => ⟨.inl rfl, fun h => nomatch h⟩
theorem unassignedOpcodeIssue : ∀ a b, Statement (.unassignedOpcodeIssue a b) := fun _ _ => ⟨.inl rfl, fun h => nomatch h⟩
theorem slackBelowMargin : ∀ a b, Statement (.slackBelowMargin a b) := fun _ _ => ⟨.inl rfl, fun h => nomatch h⟩
theorem stallCounterClk : ∀ a, Statement (.stallCounterClk a) := fun _ => ⟨.inl rfl, fun h => nomatch h⟩
theorem viaductRetrainEnd : ∀ a, Statement (.viaductRetrainEnd a) := fun _ => ⟨.inl rfl, fun h => nomatch h⟩
theorem stackReachesD0 : ∀ a, Statement (.stackReachesD0 a) := fun _ => ⟨.inl rfl, fun h => nomatch h⟩
theorem halt : ∀ a, Statement (.halt a) := fun _ => ⟨.inl rfl, fun h => nomatch h⟩
theorem go : ∀ a, Statement (.go a) := fun _ => ⟨.inl rfl, fun h => nomatch h⟩
theorem step : ∀ a, Statement (.step a) := fun _ => ⟨.inl rfl, fun h => nomatch h⟩
theorem read : ∀ a, Statement (.read a) := fun _ => ⟨.inl rfl, fun h => nomatch h⟩
theorem write : ∀ a, Statement (.write a) := fun _ => ⟨.inl rfl, fun h => nomatch h⟩
theorem pop : ∀ a, Statement (.pop a) := fun _ => ⟨.inl rfl, fun h => nomatch h⟩
theorem memrd : ∀ a, Statement (.memrd a) := fun _ => ⟨.inl rfl, fun h => nomatch h⟩
theorem memwr : ∀ a, Statement (.memwr a) := fun _ => ⟨.inl rfl, fun h => nomatch h⟩
theorem query : ∀ a, Statement (.query a) := fun _ => ⟨.inl rfl, fun h => nomatch h⟩
theorem rreg : ∀ a, Statement (.rreg a) := fun _ => ⟨.inl rfl, fun h => nomatch h⟩
theorem wreg : ∀ a, Statement (.wreg a) := fun _ => ⟨.inl rfl, fun h => nomatch h⟩
theorem find : ∀ a, Statement (.find a) := fun _ => ⟨.inl rfl, fun h => nomatch h⟩
theorem thermalBlockMove : ∀ a b, Statement (.thermalBlockMove a b) := fun _ _ => ⟨.inl rfl, fun h => nomatch h⟩
theorem ret : Statement .ret := ⟨.inr rfl, fun h => nomatch h⟩
theorem exit : Statement .exit := ⟨.inr rfl, fun h => nomatch h⟩
theorem yield : Statement .yield := ⟨.inr rfl, fun h => nomatch h⟩
theorem nop : Statement .nop := ⟨.inr rfl, fun h => nomatch h⟩
theorem lsync : Statement .lsync := ⟨.inr rfl, fun h => nomatch h⟩
theorem fenceAcq : Statement .fenceAcq := ⟨.inr rfl, fun h => nomatch h⟩
theorem fenceRel : Statement .fenceRel := ⟨.inr rfl, fun h => nomatch h⟩
theorem fenceAr : Statement .fenceAr := ⟨.inr rfl, fun h => nomatch h⟩
theorem opfence : Statement .opfence := ⟨.inr rfl, fun h => nomatch h⟩
theorem cpass : Statement .cpass := ⟨.inr rfl, fun h => nomatch h⟩
theorem mwait : Statement .mwait := ⟨.inr rfl, fun h => nomatch h⟩
theorem eret : Statement .eret := ⟨.inr rfl, fun h => nomatch h⟩
theorem eretSave : Statement .eretSave := ⟨.inr rfl, fun h => nomatch h⟩
theorem tlbsync : Statement .tlbsync := ⟨.inr rfl, fun h => nomatch h⟩
theorem attestationReport : Statement .attestationReport := ⟨.inl rfl, fun h => nomatch h⟩
theorem debugAuthorisation : Statement .debugAuthorisation := ⟨.inl rfl, fun h => nomatch h⟩
theorem governorCheck : Statement .governorCheck := ⟨.inl rfl, fun h => nomatch h⟩
theorem remoteTimeoutExpiry : ∀ a b c, Statement (.remoteTimeoutExpiry a b c) := fun _ _ _ => ⟨.inl rfl, fun h => nomatch h⟩
theorem preemption : ∀ a b, Statement (.preemption a b) := fun _ _ => ⟨.inl rfl, fun h => nomatch h⟩
theorem powerWake : ∀ a, Statement (.powerWake a) := fun _ => ⟨.inl rfl, fun h => nomatch h⟩
theorem pkQwidxWrite : ∀ a b c, Statement (.pkQwidxWrite a b c) := fun _ _ _ => ⟨.inl rfl, fun h => nomatch h⟩
theorem pkQcfgWrite : ∀ a b c, Statement (.pkQcfgWrite a b c) := fun _ _ _ => ⟨.inl rfl, fun h => nomatch h⟩
theorem pkQctlStop : ∀ a b, Statement (.pkQctlStop a b) := fun _ _ => ⟨.inl rfl, fun h => nomatch h⟩
theorem pkQctlTerminate : ∀ a b, Statement (.pkQctlTerminate a b) := fun _ _ => ⟨.inl rfl, fun h => nomatch h⟩
theorem pkQctlResume : ∀ a b, Statement (.pkQctlResume a b) := fun _ _ => ⟨.inl rfl, fun h => nomatch h⟩
theorem pkQctlReset : ∀ a b, Statement (.pkQctlReset a b) := fun _ _ => ⟨.inl rfl, fun h => nomatch h⟩
theorem pkSemWrite : ∀ a b c, Statement (.pkSemWrite a b c) := fun _ _ _ => ⟨.inl rfl, fun h => nomatch h⟩
theorem icCtlWrite : ∀ a b c, Statement (.icCtlWrite a b c) := fun _ _ _ => ⟨.inl rfl, fun h => nomatch h⟩
theorem twResolveRetry : ∀ a b c, Statement (.twResolveRetry a b c) := fun _ _ _ => ⟨.inl rfl, fun h => nomatch h⟩
theorem twResolveTerminate : ∀ a b c, Statement (.twResolveTerminate a b c) := fun _ _ _ => ⟨.inl rfl, fun h => nomatch h⟩
theorem twPdaddrWrite : ∀ a b c, Statement (.twPdaddrWrite a b c) := fun _ _ _ => ⟨.inl rfl, fun h => nomatch h⟩
theorem twFrtailWrite : ∀ a b, Statement (.twFrtailWrite a b) := fun _ _ => ⟨.inl rfl, fun h => nomatch h⟩
theorem egLockWrite : ∀ a, Statement (.egLockWrite a) := fun _ => ⟨.inl rfl, fun h => nomatch h⟩
theorem seAttreqWrite : ∀ a, Statement (.seAttreqWrite a) := fun _ => ⟨.inl rfl, fun h => nomatch h⟩
theorem registerWrite : ∀ a b c d e, Statement (.registerWrite a b c d e) := fun _ _ _ _ _ => ⟨.inl rfl, fun h => nomatch h⟩
theorem mboxaccUpdate : ∀ a, Statement (.mboxaccUpdate a) := fun _ => ⟨.inl rfl, fun h => nomatch h⟩
theorem sessionMigration : ∀ a b, Statement (.sessionMigration a b) := fun _ _ => ⟨.inl rfl, fun h => nomatch h⟩
theorem upwardSwitchRequest : ∀ a, Statement (.upwardSwitchRequest a) := fun _ => ⟨.inl rfl, fun h => nomatch h⟩
theorem ptpCorrection : ∀ a b, Statement (.ptpCorrection a b) := fun _ _ => ⟨.inl rfl, fun h => nomatch h⟩
theorem pcieDownstreamRequest : ∀ a, Statement (.pcieDownstreamRequest a) := fun _ => ⟨.inl rfl, fun h => nomatch h⟩
theorem viaductRetrain : ∀ a, Statement (.viaductRetrain a) := fun _ => ⟨.inl rfl, fun h => nomatch h⟩
theorem sramScrub : ∀ a b c, Statement (.sramScrub a b c) := fun _ _ _ => ⟨.inl rfl, fun h => nomatch h⟩
theorem lpddrScrub : ∀ a b, Statement (.lpddrScrub a b) := fun _ _ => ⟨.inl rfl, fun h => nomatch h⟩
theorem moduleReset : ∀ a, Statement (.moduleReset a) := fun _ => ⟨.inl rfl, fun h => nomatch h⟩
theorem applicationCoreAccess : ∀ a, Statement (.applicationCoreAccess a) := fun _ => ⟨.inl rfl, fun h => nomatch h⟩
theorem viaductFlitReplay : ∀ a, Statement (.viaductFlitReplay a) := fun _ => ⟨.inl rfl, fun h => nomatch h⟩
theorem ethernetFrameReceived : ∀ a b, Statement (.ethernetFrameReceived a b) := fun _ _ => ⟨.inl rfl, fun h => nomatch h⟩

end Sys2Proof.Laws.Streams
end

