-- ==== Sys2Proof/Tests/Slice0.lean ====
section
/-! SUPPORT. Tests, each on one small case: ill-formed terms that the checks refuse, words written out from the encodings of
the spec, single steps from its examples, and for each statement a case that meets its hypotheses. -/

namespace Sys2Proof.Tests
open Sys2Proof.Machine Sys2Proof.Claims

set_option maxRecDepth 100000

/-! ### Ill-formed terms -/

/-- A lane operation with its main fields. -/
def lop (ty : Ty) (form : Form) (vd va vb vc : BitVec 8) (imm : Word) : LaneOp :=
  { dist := 0, pred := 7, neg := false, slot := false, vd := vd, va := va, vb := vb, vc := vc, use := 0, hold := 0, ty := ty
    form := form, rnd := 0, imm := imm }

/-- No instruction of a list is well formed. -/
def refused (is : List Instr) : Bool := is.all fun i => !i.wf

theorem test_illFormedPairs : refused [.add 5 6 8 true, .sub 4 7 8 true, .andn 4 6 9 true, .shl 5 6 8 true, .rotl 4 7 8 true,
    .clz 5 6 true, .mov 4 7 true, .sext 5 6 true 1, .sel 4 6 9 true 0, .ldD 5 6 0 0, .stD 5 6 0 0] = true := by decide

theorem test_illFormedFields : refused [.sext 4 6 false 3, .zext 4 6 false 2, .cmp 1 2 3 10, .cmpi 15 1 2 3, .atom 4 6 0 false 10,
    .atom 5 6 0 false 9, .atom 6 8 0 true 9, .atom 5 6 0 true 1, .waitp 4 5, .mma 4 6 0, .mqt 6 0, .mfifoClaim 4 5 3,
    .mfifoRelease 3, .mfifoHead 4 3, .mfifoSethead 4 3] = true := by decide

theorem test_illFormedBasesAndFlags : refused [.ldB 4 7 0 0, .ldBn 4 6 12 0, .ldH 4 6 13 0, .ldHn 4 6 14 0, .ldW 4 7 15 0, .stB 4 7 0 0,
    .stH 4 6 12 0, .stW 4 7 0 0, .waitm 5 6, .ckick 5 6, .launch 5, .mma 5 8 0, .mma 4 8 12, .mzero 4 13, .mtld 5 6 0, .mtst 4 6 12,
    .dkey 5 6, .ddraw 5 6 8 0, .ddraw 4 6 8 14, .dpos 4 6 15, .xband 4 15, .xband 5 0, .tlbinv 5 6,
    .clauseStart ⟨0, true, 12, false, 0, 0, false⟩, .clauseStart ⟨0, false, 0, true, 15, 0, false⟩] = true := by decide

theorem test_illFormedLanes : refused [.vadd (lop .f32 .reg 4 6 8 0 0), .vadd (lop .i32 .mem 4 6 8 0 0),
    .vadd { lop .i32 .reg 4 6 8 0 0 with rnd := 1 }, .vadd { lop .i32 .reg 4 6 8 0 0 with slot := true },
    .vend { lop .b32 .reg 0 0 0 0 0 with pred := 6 }, .vshl (lop .i32 .imm 4 6 0 0 32), .vmov (lop .b32 .reg 4 1 8 0 0),
    .vadd (lop .i64 .reg 5 6 8 0 0), .vcmp (lop .i32 .reg 4 6 8 6 0), .vcmp (lop .i32 .reg 8 6 8 0 0),
    .vadd (lop .i32 .imm 4 6 1 0 0), .vadd (lop .i32 .imm 4 6 0x80 0 0), .vadd (lop .i32 .uni 4 6 0 0 512),
    .vadd (lop .i32 .reg 4 6 8 0 1), .vadd (lop .i32 .reg 4 6 8 1 0), .vadd { lop .i32 .imm 4 6 0 0 0 with use := 2 },
    .vcvt (lop .f32 .reg 4 6 0 8 0), .vred (lop .i64 .reg 5 6 0 0 0), .vld (lop .i32 .mem 4 6 8 4 0), .vst (lop .b32 .mem 0x10 6 8 4 0),
    .vatom (lop .i32 .mem 4 6 8 10 0), .vprf (lop .b32 .mem 0 6 8 2 0), .vbrx (lop .b32 .imm 0 6 0 0 0x10000),
    .vfeed (lop .b32 .imm 0 6 0 3 0), .vaccr (lop .b32 .imm 4 0 0 0 0), .vtrace (lop .b32 .uni 4 8 0 0 9),
    .vsgat (lop .b32 .uni 0 5 0 7 10), .vrowpk (lop .b32 .uni 2 5 0 7 10)] = true := by decide

/-! ### Words from the encodings -/

/-- Each word decodes to its instruction, and the instruction encodes to its word. -/
def scalarWords (ws : List (Nat × Instr)) : Bool :=
  ws.all fun e => decide (decodeScalar e.1 = .instr e.2) && encodeScalar e.2 == some e.1

/-- A lane word of an opcode, a type code, a form code and vd, va, vb, vc and imm, at the places of R124: the guard p7, all
other fields 0. -/
def laneBitsOf (op ty form vd va vb vc imm : Nat) : Nat :=
  op * 2 ^ 88 + 7 * 2 ^ 82 + vd * 2 ^ 72 + va * 2 ^ 64 + vb * 2 ^ 56 + vc * 2 ^ 48 + ty * 2 ^ 36 + form * 2 ^ 34 + imm

/-- Each opcode with its fields decodes to its instruction with the same fields, and back. -/
def laneWords (ws : List (Nat × (LaneOp → Instr) × Nat × Nat × Nat × Nat × Nat × Nat × Nat)) : Bool :=
  ws.all fun (op, i, ty, form, vd, va, vb, vc, imm) =>
    let forms : List Form := [.reg, .imm, .uni, .mem]
    let l := lop ((Ty.ofCode ty).getD .b32) (forms.getD form .reg) (BitVec.ofNat 8 vd) (BitVec.ofNat 8 va) (BitVec.ofNat 8 vb)
      (BitVec.ofNat 8 vc) (word imm)
    let w := laneBitsOf op ty form vd va vb vc imm
    decide (decodeLane w = .instr (i l)) && encodeLane (i l) == some w

theorem test_decodeArith : scalarWords [
   (1 * 2 ^ 25 + 4 * 2 ^ 18 + 6 * 2 ^ 11 + 8 * 2 ^ 4 + 1 * 2 ^ 3, .add 4 6 8 true),
   (2 * 2 ^ 25 + 4 * 2 ^ 18 + 6 * 2 ^ 11 + 8 * 2 ^ 4 + 1 * 2 ^ 3, .sub 4 6 8 true),
   (3 * 2 ^ 25 + 4 * 2 ^ 18 + 6 * 2 ^ 11 + 8 * 2 ^ 4 + 1 * 2 ^ 3, .mul 4 6 8 true),
   (4 * 2 ^ 25 + 4 * 2 ^ 18 + 6 * 2 ^ 11 + 8 * 2 ^ 4, .mulh 4 6 8),
   (5 * 2 ^ 25 + 4 * 2 ^ 18 + 6 * 2 ^ 11 + 8 * 2 ^ 4, .mulhn 4 6 8),
   (6 * 2 ^ 25 + 4 * 2 ^ 18 + 6 * 2 ^ 11 + 8 * 2 ^ 4, .divi 4 6 8),
   (7 * 2 ^ 25 + 4 * 2 ^ 18 + 6 * 2 ^ 11 + 8 * 2 ^ 4, .divn 4 6 8),
   (8 * 2 ^ 25 + 4 * 2 ^ 18 + 6 * 2 ^ 11 + 8 * 2 ^ 4, .remi 4 6 8),
   (9 * 2 ^ 25 + 4 * 2 ^ 18 + 6 * 2 ^ 11 + 8 * 2 ^ 4, .remn 4 6 8),
   (10 * 2 ^ 25 + 4 * 2 ^ 18 + 6 * 2 ^ 11 + 8 * 2 ^ 4 + 1 * 2 ^ 3, .and 4 6 8 true),
   (11 * 2 ^ 25 + 4 * 2 ^ 18 + 6 * 2 ^ 11 + 8 * 2 ^ 4 + 1 * 2 ^ 3, .or 4 6 8 true),
   (12 * 2 ^ 25 + 4 * 2 ^ 18 + 6 * 2 ^ 11 + 8 * 2 ^ 4 + 1 * 2 ^ 3, .xor 4 6 8 true),
   (13 * 2 ^ 25 + 4 * 2 ^ 18 + 6 * 2 ^ 11 + 8 * 2 ^ 4 + 1 * 2 ^ 3, .andn 4 6 8 true),
   (14 * 2 ^ 25 + 4 * 2 ^ 18 + 6 * 2 ^ 11 + 8 * 2 ^ 4 + 1 * 2 ^ 3, .shl 4 6 8 true),
   (15 * 2 ^ 25 + 4 * 2 ^ 18 + 6 * 2 ^ 11 + 8 * 2 ^ 4 + 1 * 2 ^ 3, .shr 4 6 8 true),
   (16 * 2 ^ 25 + 4 * 2 ^ 18 + 6 * 2 ^ 11 + 8 * 2 ^ 4 + 1 * 2 ^ 3, .sar 4 6 8 true),
   (17 * 2 ^ 25 + 4 * 2 ^ 18 + 6 * 2 ^ 11 + 8 * 2 ^ 4 + 1 * 2 ^ 3, .rotl 4 6 8 true),
   (18 * 2 ^ 25 + 4 * 2 ^ 18 + 6 * 2 ^ 11 + 8 * 2 ^ 4 + 1 * 2 ^ 3, .min 4 6 8 true),
   (19 * 2 ^ 25 + 4 * 2 ^ 18 + 6 * 2 ^ 11 + 8 * 2 ^ 4 + 1 * 2 ^ 3, .minn 4 6 8 true),
   (20 * 2 ^ 25 + 4 * 2 ^ 18 + 6 * 2 ^ 11 + 8 * 2 ^ 4 + 1 * 2 ^ 3, .max 4 6 8 true),
   (21 * 2 ^ 25 + 4 * 2 ^ 18 + 6 * 2 ^ 11 + 8 * 2 ^ 4 + 1 * 2 ^ 3, .maxn 4 6 8 true),
   (22 * 2 ^ 25 + 4 * 2 ^ 18 + 6 * 2 ^ 11 + 1 * 2 ^ 3, .clz 4 6 true),
   (23 * 2 ^ 25 + 4 * 2 ^ 18 + 6 * 2 ^ 11 + 1 * 2 ^ 3, .ctz 4 6 true),
   (24 * 2 ^ 25 + 4 * 2 ^ 18 + 6 * 2 ^ 11 + 1 * 2 ^ 3, .popc 4 6 true),
   (25 * 2 ^ 25 + 4 * 2 ^ 18 + 6 * 2 ^ 11 + 1 * 2 ^ 3 + 1, .sext 4 6 true 1),
   (26 * 2 ^ 25 + 4 * 2 ^ 18 + 6 * 2 ^ 11 + 1 * 2 ^ 3 + 1, .zext 4 6 true 1)] = true := by decide

theorem test_decodeCompare : scalarWords [
   (432 * 2 ^ 21 + 3 * 2 ^ 18 + 6 * 2 ^ 11 + 8 * 2 ^ 4 + 4, .cmp 3 6 8 4),
   (39 * 2 ^ 25 + 4 * 2 ^ 21 + 3 * 2 ^ 18 + 6 * 2 ^ 11 + 21, .cmpi 4 3 6 21),
   (448 * 2 ^ 21 + 1 * 2 ^ 18 + 6 * 2 ^ 11 + 5 * 2 ^ 4, .qand 1 6 5),
   (448 * 2 ^ 21 + 1 * 2 ^ 18 + 6 * 2 ^ 11 + 5 * 2 ^ 4 + 1, .qor 1 6 5),
   (448 * 2 ^ 21 + 1 * 2 ^ 18 + 6 * 2 ^ 11 + 5 * 2 ^ 4 + 2, .qxor 1 6 5),
   (448 * 2 ^ 21 + 1 * 2 ^ 18 + 6 * 2 ^ 11 + 5 * 2 ^ 4 + 3, .qandn 1 6 5),
   (448 * 2 ^ 21 + 1 * 2 ^ 18 + 6 * 2 ^ 11 + 4, .qnot 1 6),
   (28 * 2 ^ 25 + 4 * 2 ^ 18 + 5, .qget 4),
   (3584 * 2 ^ 18 + 6 * 2 ^ 11 + 6, .qset 6),
   (29 * 2 ^ 25 + 4 * 2 ^ 18 + 6 * 2 ^ 11 + 8 * 2 ^ 4 + 1 * 2 ^ 3 + 3, .sel 4 6 8 true 3)] = true := by decide

theorem test_decodeMove : scalarWords [
   (30 * 2 ^ 25 + 4 * 2 ^ 18 + 6 * 2 ^ 11 + 1 * 2 ^ 3, .mov 4 6 true),
   (31 * 2 ^ 25 + 4 * 2 ^ 18 + 9, .srd 4 9),
   (32 * 2 ^ 25 + 4 * 2 ^ 18 + 6 * 2 ^ 11 + 21, .addi 4 6 21),
   (33 * 2 ^ 25 + 4 * 2 ^ 18 + 6 * 2 ^ 11 + 21, .andi 4 6 21),
   (34 * 2 ^ 25 + 4 * 2 ^ 18 + 6 * 2 ^ 11 + 21, .ori 4 6 21),
   (35 * 2 ^ 25 + 4 * 2 ^ 18 + 6 * 2 ^ 11 + 21, .xori 4 6 21),
   (36 * 2 ^ 25 + 4 * 2 ^ 18 + 6 * 2 ^ 11 + 21, .shli 4 6 21),
   (37 * 2 ^ 25 + 4 * 2 ^ 18 + 6 * 2 ^ 11 + 21, .shri 4 6 21),
   (38 * 2 ^ 25 + 4 * 2 ^ 18 + 6 * 2 ^ 11 + 21, .sari 4 6 21),
   (40 * 2 ^ 25 + 4 * 2 ^ 18 + 65344 * 2 ^ 2, .movi 4 0xff40),
   (41 * 2 ^ 25 + 4 * 2 ^ 18 + 7 * 2 ^ 2, .movhi 4 7),
   (42 * 2 ^ 25 + 300 * 2 ^ 16 + 17 * 2 ^ 7, .gmov 300 17)] = true := by decide

theorem test_decodeMemory : scalarWords [
   (48 * 2 ^ 25 + 4 * 2 ^ 18 + 6 * 2 ^ 11 + 5 * 2 ^ 7 + 9, .ldB 4 6 5 9),
   (49 * 2 ^ 25 + 4 * 2 ^ 18 + 6 * 2 ^ 11 + 5 * 2 ^ 7 + 9, .ldBn 4 6 5 9),
   (50 * 2 ^ 25 + 4 * 2 ^ 18 + 6 * 2 ^ 11 + 5 * 2 ^ 7 + 9, .ldH 4 6 5 9),
   (51 * 2 ^ 25 + 4 * 2 ^ 18 + 6 * 2 ^ 11 + 5 * 2 ^ 7 + 9, .ldHn 4 6 5 9),
   (52 * 2 ^ 25 + 4 * 2 ^ 18 + 6 * 2 ^ 11 + 5 * 2 ^ 7 + 9, .ldW 4 6 5 9),
   (53 * 2 ^ 25 + 4 * 2 ^ 18 + 6 * 2 ^ 11 + 5 * 2 ^ 7 + 9, .ldD 4 6 5 9),
   (54 * 2 ^ 25 + 4 * 2 ^ 18 + 6 * 2 ^ 11 + 5 * 2 ^ 7 + 9, .stB 4 6 5 9),
   (55 * 2 ^ 25 + 4 * 2 ^ 18 + 6 * 2 ^ 11 + 5 * 2 ^ 7 + 9, .stH 4 6 5 9),
   (56 * 2 ^ 25 + 4 * 2 ^ 18 + 6 * 2 ^ 11 + 5 * 2 ^ 7 + 9, .stW 4 6 5 9),
   (57 * 2 ^ 25 + 4 * 2 ^ 18 + 6 * 2 ^ 11 + 5 * 2 ^ 7 + 9, .stD 4 6 5 9),
   (58 * 2 ^ 25 + 4 * 2 ^ 18 + 6 * 2 ^ 11 + 5 * 2 ^ 7 + 1 * 2 ^ 4 + 7, .atom 4 6 5 true 7)] = true := by decide

theorem test_decodeControl : scalarWords [
   (1038 * 2 ^ 21 + 0x1ffff0, .jmp 0x1ffff0),
   (65 * 2 ^ 25 + 3 * 2 ^ 22 + 1 * 2 ^ 21 + 44, .bq 3 true 44),
   (1070 * 2 ^ 21 + 33, .call 33),
   (0x86000000, .ret),
   (68 * 2 ^ 25 + 6 * 2 ^ 18, .jr 6),
   (69 * 2 ^ 25 + 4 * 2 ^ 18 + 21, .loop 4 21),
   (0x8c000000, .exit),
   (0x8e000000, .yield),
   (0x90000000, .nop),
   (9344 * 2 ^ 18 + 300 * 2 ^ 2, .lrun 300),
   (74 * 2 ^ 25 + 6 * 2 ^ 18 + 8 * 2 ^ 11, .lrunx 6 8),
   (0x96000000, .lsync),
   (155648 * 2 ^ 14 + 2053 * 2 ^ 2, .fwait 0x805),
   (77 * 2 ^ 25 + 6 * 2 ^ 18 + 4, .waitp 6 4),
   (78 * 2 ^ 25 + 6 * 2 ^ 18, .waitz 6),
   (100 * 2 ^ 25 + 6 * 2 ^ 18 + 8 * 2 ^ 11, .waitm 6 8)] = true := by decide

theorem test_decodeSync : scalarWords [
   (79 * 2 ^ 25 + 4 * 2 ^ 18 + 9 * 2 ^ 2, .bar 4 9),
   (79 * 2 ^ 25 + 4 * 2 ^ 18 + 9 * 2 ^ 2 + 1, .bara 4 9),
   (41418752 * 2 ^ 6 + 9 * 2 ^ 2 + 2, .barw 9),
   (0xa0000000, .fenceAcq),
   (0xa0000001, .fenceRel),
   (0xa0000002, .fenceAr),
   (0xa0000003, .opfence),
   (0xa2000000, .cpass),
   (10496 * 2 ^ 18 + 15 * 2 ^ 2, .swpt 15),
   (83 * 2 ^ 25 + 6 * 2 ^ 18 + 8 * 2 ^ 11, .ckick 6 8),
   (84 * 2 ^ 25 + 6 * 2 ^ 18, .ccancel 6),
   (85 * 2 ^ 25 + 6 * 2 ^ 18, .launch 6),
   (86 * 2 ^ 25 + 6 * 2 ^ 18, .join 6),
   (11403264 * 2 ^ 8 + 61 * 2 ^ 2, .xsig 61),
   (11534336 * 2 ^ 8 + 61 * 2 ^ 2, .xwait 61)] = true := by decide

theorem test_decodeMatrix : scalarWords [
   (89 * 2 ^ 25 + 12 * 2 ^ 18 + 8 * 2 ^ 11 + 5, .mma 12 8 5),
   (90 * 2 ^ 25 + 8 * 2 ^ 18 + 5, .mqt 8 5),
   (91 * 2 ^ 25 + 6 * 2 ^ 18 + 5, .mzero 6 5),
   (92 * 2 ^ 25 + 6 * 2 ^ 18 + 8 * 2 ^ 11 + 5, .mtld 6 8 5),
   (93 * 2 ^ 25 + 6 * 2 ^ 18 + 8 * 2 ^ 11 + 5, .mtst 6 8 5),
   (0xbc000000, .mwait),
   (95 * 2 ^ 25 + 6 * 2 ^ 18 + 8 * 2 ^ 11 + 2 * 2 ^ 2, .mfifoClaim 6 8 2),
   (199229440 * 2 ^ 4 + 2 * 2 ^ 2 + 1, .mfifoRelease 2),
   (95 * 2 ^ 25 + 6 * 2 ^ 18 + 1 * 2 ^ 2 + 2, .mfifoHead 6 1),
   (95 * 2 ^ 25 + 6 * 2 ^ 18 + 1 * 2 ^ 2 + 3, .mfifoSethead 6 1)] = true := by decide

theorem test_decodeSystem : scalarWords [
   (96 * 2 ^ 25 + 6 * 2 ^ 18 + 8 * 2 ^ 11, .dkey 6 8),
   (97 * 2 ^ 25 + 6 * 2 ^ 18 + 4 * 2 ^ 11 + 10 * 2 ^ 4 + 5, .ddraw 6 4 10 5),
   (98 * 2 ^ 25 + 6 * 2 ^ 18 + 4 * 2 ^ 11 + 5, .dpos 6 4 5),
   (99 * 2 ^ 25 + 6 * 2 ^ 18 + 5, .xband 6 5),
   (13312 * 2 ^ 18 + 43981 * 2 ^ 2, .trap 0xabcd),
   (105 * 2 ^ 25 + 6 * 2 ^ 18 + 2, .eretTerm 6),
   (0xd2000000, .eret),
   (0xd2000001, .eretSave),
   (106 * 2 ^ 25 + 257 * 2 ^ 16 + 300 * 2 ^ 7 + 6, .prd 257 300 6),
   (107 * 2 ^ 25 + 300 * 2 ^ 16 + 40 * 2 ^ 7 + 6, .pwr 300 40 6),
   (13824 * 2 ^ 18 + 4660 * 2 ^ 2, .brk 0x1234),
   (109 * 2 ^ 25 + 6 * 2 ^ 18 + 8 * 2 ^ 11, .tlbinv 6 8),
   (0xdc000000, .tlbsync)] = true := by decide

theorem test_decodeLaneInteger : laneWords [
   (0x01, .vadd, 1, 0, 4, 6, 8, 0, 0),
   (0x02, .vsub, 4, 0, 4, 6, 8, 0, 0),
   (0x03, .vmul, 5, 0, 4, 6, 8, 0, 0),
   (0x04, .vmulh, 2, 0, 4, 6, 8, 0, 0),
   (0x05, .vmad, 17, 0, 4, 6, 8, 10, 0),
   (0x06, .vabs, 8, 0, 4, 6, 0, 0, 0),
   (0x07, .vneg, 16, 0, 4, 6, 0, 0, 0),
   (0x08, .vmin, 6, 0, 4, 6, 8, 0, 0),
   (0x09, .vmax, 3, 0, 4, 6, 8, 0, 0),
   (0x0A, .vand, 0, 0, 4, 6, 8, 0, 0),
   (0x0B, .vor, 0, 0, 4, 6, 8, 0, 0),
   (0x0C, .vxor, 0, 0, 4, 6, 8, 0, 0),
   (0x0D, .vnot, 0, 0, 4, 6, 0, 0, 0),
   (0x0E, .vandn, 0, 0, 4, 6, 8, 0, 0),
   (0x0F, .vshl, 0, 1, 4, 6, 0, 0, 31),
   (0x10, .vshr, 2, 0, 4, 6, 8, 0, 0),
   (0x11, .vsar, 16, 1, 4, 6, 0, 0, 63),
   (0x12, .vrotl, 1, 2, 4, 6, 0, 0, 17),
   (0x13, .vclz, 0, 0, 4, 6, 0, 0, 0),
   (0x14, .vpopc, 1, 0, 4, 6, 0, 0, 0),
   (0x15, .vbrev, 2, 0, 4, 6, 0, 0, 0),
   (0x16, .vbfe, 1, 0, 4, 6, 8, 0, 0),
   (0x17, .vbfi, 0, 0, 4, 6, 8, 10, 0),
   (0x18, .vaddc, 2, 0, 4, 6, 8, 3, 0),
   (0x19, .vsubb, 2, 0, 4, 6, 8, 3, 0),
   (0x1A, .vsad, 6, 0, 4, 6, 8, 10, 0),
   (0x1B, .vdp4, 5, 0, 4, 6, 8, 10, 0),
   (0x1C, .vcmp, 1, 0, 5, 6, 8, 5, 0),
   (0x1D, .vpop, 0, 0, 5, 6, 7, 3, 0),
   (0x1E, .vsel, 13, 0, 4, 6, 8, 7, 0)] = true := by decide

theorem test_decodeLaneFloat : laneWords [
   (0x40, .vfadd, 8, 0, 4, 6, 8, 0, 0),
   (0x41, .vfsub, 9, 0, 4, 6, 8, 0, 0),
   (0x42, .vfmul, 10, 0, 4, 6, 8, 0, 0),
   (0x43, .vfma, 8, 0, 4, 6, 8, 10, 0),
   (0x44, .vfmin, 8, 0, 4, 6, 8, 0, 0),
   (0x45, .vfmax, 8, 0, 4, 6, 8, 0, 0),
   (0x46, .vfrnd, 8, 0, 4, 6, 0, 0, 0),
   (0x47, .vfrac, 8, 0, 4, 6, 0, 0, 0),
   (0x48, .vdot2, 9, 0, 4, 6, 8, 10, 0),
   (0x49, .vfscl, 8, 0, 4, 6, 8, 0, 0),
   (0x4A, .vfcmp, 8, 0, 5, 6, 8, 7, 0),
   (0x4B, .vclass, 8, 0, 4, 6, 0, 0, 0),
   (0x60, .vrcp, 8, 0, 4, 6, 0, 0, 0),
   (0x61, .vrsq, 8, 0, 4, 6, 0, 0, 0),
   (0x62, .vsqrt, 8, 0, 4, 6, 0, 0, 0),
   (0x63, .vexp2, 8, 0, 4, 6, 0, 0, 0),
   (0x64, .vlog2, 8, 0, 4, 6, 0, 0, 0),
   (0x65, .vsin, 8, 0, 4, 6, 0, 0, 0),
   (0x66, .vcos, 8, 0, 4, 6, 0, 0, 0),
   (0x67, .vtanh, 8, 0, 4, 6, 0, 0, 0)] = true := by decide

theorem test_decodeLaneConvert : laneWords [
   (0x68, .vcvt, 8, 0, 4, 6, 0, 17, 0),
   (0x69, .vpack, 9, 0, 4, 6, 8, 0, 0),
   (0x6A, .vunpk, 5, 0, 4, 6, 0, 3, 0),
   (0x6B, .vquant, 11, 0, 4, 6, 8, 3, 0),
   (0x6B, .vquantScale, 13, 0, 4, 6, 0, 128, 0),
   (0x70, .vmov, 0, 2, 4, 0, 0, 0, 511),
   (0x71, .vmovi, 8, 1, 4, 0, 0, 0, 0x3f800000),
   (0x72, .vsrd, 0, 1, 4, 0, 0, 0, 0),
   (0x73, .vshfl, 0, 0, 4, 6, 8, 3, 0),
   (0x74, .vred, 1, 0, 4, 6, 0, 5, 0),
   (0x75, .vscan, 2, 0, 4, 6, 0, 13, 0),
   (0x76, .vballot, 0, 0, 4, 6, 0, 0, 0),
   (0x77, .vfirst, 0, 0, 4, 0, 0, 0, 0)] = true := by decide

theorem test_decodeLaneMemoryControl : laneWords [
   (0x80, .vld, 0, 3, 4, 6, 8, 3, 12),
   (0x81, .vst, 0, 3, 3, 6, 8, 4, 12),
   (0x82, .vatom, 1, 3, 4, 6, 8, 7, 12),
   (0x83, .vmred, 8, 3, 10, 6, 8, 4, 12),
   (0x84, .vprf, 0, 3, 0, 6, 8, 1, 12),
   (0xA0, .vbr, 0, 1, 0, 0, 0, 0, 0x50003),
   (0xA1, .vbrx, 0, 1, 0, 6, 0, 0, 3),
   (0xA2, .vend, 0, 0, 0, 0, 0, 0, 0),
   (0xA3, .vexit, 0, 0, 0, 0, 0, 0, 0),
   (0xA4, .vnop, 0, 0, 0, 0, 0, 0, 0)] = true := by decide

theorem test_decodeLaneUnits : laneWords [
   (0xB0, .vfeed, 0, 1, 0, 6, 0, 36, 7),
   (0xB1, .vaccr, 0, 1, 8, 0, 0, 0, 1023),
   (0xB2, .vaccw, 0, 2, 0, 8, 0, 0, 9),
   (0xC0, .vsamp, 0, 2, 0, 8, 0, 0, 9),
   (0xC1, .vtrace, 0, 2, 4, 8, 0, 0, 10),
   (0xC2, .vprobe, 0, 2, 4, 5, 0, 0, 12),
   (0xC3, .vtex, 0, 2, 4, 5, 0, 0, 10),
   (0xC4, .vsgat, 0, 2, 255, 5, 0, 7, 10),
   (0xC5, .vrowpk, 0, 2, 1, 5, 0, 7, 10)] = true := by decide
/-- Every field of the lane format at once (R124): distance 5, guard !p3, set-B, latches. -/
theorem test_decodeLaneFields :
    decodeLane (0x80 * 2 ^ 88 + 5 * 2 ^ 85 + 3 * 2 ^ 82 + 2 ^ 81 + 2 ^ 80 + 9 * 2 ^ 72 + 11 * 2 ^ 64 + 13 * 2 ^ 56 + 1 * 2 ^ 48 +
      2 * 2 ^ 45 + 2 * 2 ^ 42 + 0 * 2 ^ 36 + 3 * 2 ^ 34 + 2 * 2 ^ 32 + 0xFFFFFFFC) =
    .instr (.vld { dist := 5, pred := 3, neg := true, slot := true, vd := 9, va := 11, vb := 13, vc := 1, use := 2, hold := 2
                   ty := .b32, form := .mem, rnd := 2, imm := 0xFFFFFFFC }) := by decide

/-- A clause header (R128): it waits for f0 and f11, set-A f3, set-B f9, 8 instructions, yield. -/
theorem test_decodeHeader :
    decodeLane (0xFF * 2 ^ 88 + 2 ^ 76 + 2 ^ 87 + 2 ^ 75 + 3 * 2 ^ 71 + 2 ^ 70 + 9 * 2 ^ 66 + 7 * 2 ^ 63 + 2 ^ 62) =
    .instr (.clauseStart ⟨0x801, true, 3, true, 9, 7, true⟩) := by decide

/-- A header with a bit of 61:0 set, and one whose set names flag 12, are reserved (R128). -/
theorem test_reservedHeaders :
    decodeLane (0xFF * 2 ^ 88 + 1) = .reserved false ∧ decodeLane (0xFF * 2 ^ 88 + 2 ^ 75 + 12 * 2 ^ 71) = .reserved false := by
  decide

/-- Reserved fields of scalar words (R120, R122): `yield` with a field, condition 10, and a system word. -/
theorem test_reservedScalar :
    decodeScalar (0x47 * 2 ^ 25 + 1) = .reserved false ∧ decodeScalar (0x1B * 2 ^ 25 + 10) = .reserved false := by decide

/-! ### Small states -/

/-- A placed group in kernel mode with some uniform registers. -/
def grp (u : Regs) : Group := { placedGroup false false with ureg := u }
/-- The same in handler mode, the registers in the shadow file. -/
def hand (u : Regs) : Group := { placedGroup false false with mode := .handler, sureg := u }

/-- The state in which the scalar stream of a group, the only one, issues. -/
def at0 (g : Group) : State := { State.reset.withFetchWord 32 0 with agenda := [], groups := [g], cur := some { group := 0 } }
/-- The same in a strict grid. -/
def strictAt (g : Group) : State := { at0 g with grids := [{ placedGrid with strict := true }] }
/-- The same where the group holds the token. -/
def tokenAt (g : Group) : State := { strictAt g with tokens := [{}] }

/-- The group that `cur` names issues, with registers inside its window; nothing reads as uncorrectable. -/
theorem scalarAt {s : State} {g : Group} {regs reads : List Nat} (hs : s.cur = some { group := 0 } ∧ s.group? 0 = some g)
    (h : ∀ r ∈ regs, r < g.ulimit) (hp : s.poison = [] := by rfl) : Scalar s { group := 0 } g regs reads :=
  ⟨hs.1, hs.2, h, by simp [State.badUni, hp]⟩

/-- The group after a step of the placed machine. -/
def ran (nbits w : Nat) : Option Group :=
  match Machine.step (State.reset.withFetchWord nbits w) with
  | .next t => t.group? 0
  | _ => none

/-- The group after an instruction issued by a group. -/
def after (i : Instr) (g : Group) : Option Group :=
  match exec i (at0 g) with
  | .next t => t.group? 0
  | _ => none

/-- A register after an instruction on the values of g4 to g7. -/
def result (i : Instr) (x y z v : Word) (r : Nat) : Option Word :=
  (after i (grp [(4, x), (5, y), (6, z), (7, v)])).map fun g => g.u r

/-! ### Single steps -/

/-- R160: `movi g5, -192`, then `movhi g5, 0` on its result. -/
theorem test_movi : (ran 32 0x5017FD00).map (fun g => (g.u 5, g.ctx.pc)) = some (0xFFFFFF40, 4) := by decide
theorem test_movhi : result (.movhi 5 0) 0 0xFFFFFF40 0 0 5 = some 0x0000FF40 := by decide

/-- R150: a divisor of 0 gives all ones and the dividend; the quotient truncates toward 0; no trap. -/
theorem test_division : result (.divi 7 4 5) 5 0 0 0 7 = some 0xFFFFFFFF ∧ result (.remi 7 4 5) 0xFFFFFFF9 2 0 0 7 = some 0xFFFFFFFF ∧
    result (.divi 7 4 5) 0xFFFFFFF9 2 0 0 7 = some 0xFFFFFFFD := by decide
/-- The most negative number divided by −1 (R149, modulo 2^32). -/
theorem test_divisionWraps : result (.divi 7 4 5) 0x80000000 0xFFFFFFFF 0 0 7 = some 0x80000000 := by decide

/-- A pair sum carries into the high word, also where a source is the destination. -/
theorem test_addPair : result (.add 4 4 6 true) 0xFFFFFFFF 1 1 0 5 = some 2 ∧ result (.add 4 4 6 true) 0xFFFFFFFF 1 1 0 4 = some 0 := by
  decide

/-- R151: gA is compared with 0xFFFFFFFF as an unsigned number: never greater. -/
theorem test_cmpi : (after (.cmpi 8 1 4 0x7FF) (grp [(4, 0xFFFFFFFF)])).map (fun g => g.ctx.qget 1) = some false := by decide

/-- R158: `loop` with a counter of 0 wraps and branches; with 1 it goes on. -/
theorem test_loop : (after (.loop 4 4) (grp [])).map (fun g => (g.u 4, g.ctx.pc)) = some (0xFFFFFFFF, 16) ∧
    (after (.loop 4 4) (grp [(4, 1)])).map (fun g => (g.u 4, g.ctx.pc)) = some (0, 4) := by decide

/-- R158: `call` writes the return address to g1; `jr` to an odd place takes MISALIGNED, which ends a context without handlers. -/
theorem test_call : (after (.call 3) (grp [])).map (fun g => (g.u 1, g.ctx.pc)) = some (4, 12) := by decide
theorem test_jrMisaligned : after (.jr 4) (grp [(4, 2)]) = none := by decide

/-- R265: the key that `dkey g20, g22` sets. -/
theorem test_dkey : (after (.dkey 20 22) (grp [(20, 1), (21, 2), (22, 3)])).map (fun g => (g.k0, g.k1, g.k2)) = some (1, 2, 3) := by
  decide

/-- R42: the high half is the one latched by the low read, 0 before. -/
theorem test_clkLatch : (after (.srd 4 0x12) (grp [])).map (fun g => g.u 4) = some 0 := by decide

/-- R304: a handler's instruction in kernel mode takes PRIVILEGED, which ends a context without handlers. -/
theorem test_privileged : after .tlbsync (grp []) = none ∧ (after .tlbsync (hand [])).map (fun g => g.h.pc) = some 4 := by decide

/-! ### Cases that meet the hypotheses -/

theorem test_reset_inv : ∀ sp, Memory.wf (State.reset.mem sp) = true := by
  intro sp
  cases sp <;> rfl

theorem test_encodingsHold : (Instr.add 4 6 8 true).wf = true ∧ encodeScalar (.add 4 6 8 true) = some 0x02103088 ∧
    (Instr.vadd (lop .i32 .reg 4 6 8 0 0)).wf = true ∧ (encodeLane (.vadd (lop .i32 .reg 4 6 8 0 0))).isSome = true := by decide

theorem test_unassignedHolds : 0 < 2 ^ 32 ∧ scalarUnassigned (0 / 2 ^ 25) = true ∧ (at0 (grp [])).cur = some { group := 0 } ∧
    (at0 (grp [])).group? 0 = some (grp []) := by decide

/-- What a turn of a stream needs to run the word at its place. -/
def ready (s : State) (t : Turn) (g : Group) (c : Cur) (pos n slot : Nat) : Bool :=
  let f := ({ s with agenda := [] } : State).fetch g c.lane (if c.lane then (s.sections g).2.2.1 else (s.sections g).1)
    (if c.lane then (s.sections g).2.2.2 else (s.sections g).2.1) pos n
  s.agenda == [t] && s.group? 0 == some g && !s.frozen g && !s.usedS.contains g.quarterKey && !s.usedL.contains g.quarterKey &&
  (match f with | .word w => w == c.word | _ => false) &&
  !(({ s with agenda := [], cur := some c } : State).breakpoint? g slot).isSome

theorem test_scalarTurnHolds : ready (State.reset.withFetchWord 32 0x501C0010) (.scalar 0) (placedGroup false false)
      { group := 0, word := 0x501C0010 } 0 4 3 = true ∧ (placedGroup false false).scalarIdle = none ∧
    decodeScalar 0x501C0010 = .instr (.movi 7 4) := by decide

/-- A lane instruction inside a clause, a lane control instruction at its end, a header. -/
def turnWords : List (Nat × Bool) :=
  [(0x01 * 2 ^ 88 + 7 * 2 ^ 82 + 2 ^ 36, false), (0xA4 * 2 ^ 88 + 7 * 2 ^ 82, false), (0xFF * 2 ^ 88, true)]
theorem test_laneTurnsHold : (turnWords.all fun e =>
    ready (State.reset.withFetchWord 96 e.1) (.lane 0 false) (placedGroup true e.2) { group := 0, lane := true, word := e.1 } 0 12 0 &&
    (placedGroup true e.2).laneIdleWhy false == none &&
    decide (((placedGroup true e.2).ctx.path false).left = 0 ↔ laneOpcode e.1 = 0xFF) &&
    (!laneControlOp (laneOpcode e.1) || ((placedGroup true e.2).ctx.path false).left == 1) &&
    (match decodeLane e.1 with | .instr _ => true | _ => false)) = true := by decide

theorem test_stepRunsEventsHolds : ({ State.reset with agenda := [.event .governorCheck] } : State).agenda = [.event .governorCheck] ∧
    State.reset.agenda = [] := by decide

/-- The scalar stream issues with registers at the ends of the window. -/
theorem test_scalarHolds : Scalar (at0 (grp [])) { group := 0 } (grp []) [0, 511] := scalarAt (by decide) (by decide)

/-- Shift amounts at the edges of both widths. -/
theorem test_shiftsHold : ([(31 : Word), 32, 63, 64].all fun n =>
    (at0 (grp [(8, n)])).group? 0 == some (grp [(8, n)]) && (grp [(8, n)]).u 8 == n && decide (8 < (grp [(8, n)]).ulimit)) = true := by
  decide

/-- Words with a reserved condition or a reserved field of `cmp`, `cmpi` and `qop`. -/
theorem test_reservedWordsHold :
    (0x1B * 2 ^ 25 + 10) / 2 ^ 25 = 0x1B ∧ 10 ≤ (0x1B * 2 ^ 25 + 10) % 16 ∧ (0x1B * 2 ^ 25 + 2 ^ 21) / 2 ^ 21 % 16 ≠ 0 ∧
    10 ≤ (0x27 * 2 ^ 25 + 10 * 2 ^ 21) / 2 ^ 21 % 16 ∧ 7 ≤ (0x1C * 2 ^ 25 + 7) % 16 ∧ (0x1C * 2 ^ 25 + 3 + 2 ^ 21) / 2 ^ 21 % 16 ≠ 0 ∧
    (0x1C * 2 ^ 25 + 4 + 2 ^ 4) / 2 ^ 4 % 128 ≠ 0 ∧ (0x1C * 2 ^ 25 + 5 + 2 ^ 17) / 2 ^ 4 % 2 ^ 14 ≠ 0 ∧
    (0x1C * 2 ^ 25 + 6 + 2 ^ 18) / 2 ^ 18 % 128 ≠ 0 ∧ pairOk true [4, 6, 8] = true := by decide

/-- Numbers of special registers that `srd` does not read. -/
theorem test_specialReadsHold : ∀ n ∈ [(0 : BitVec 11), 0x16, 0x17, 0x1D, 0x7FF], n = 0 ∨ n = 0x16 ∨ n = 0x17 ∨ 0x1D ≤ n.toNat := by
  decide

/-! ### Scalar memory -/

/-- g6:g7 is the own-core window, or another high word. -/
def mem1 (hi lo : Word) : Group := grp [(6, lo), (7, hi)]

theorem test_memoryIssueHolds : ∀ k ∈ [AccKind.read, .write, .atomic],
    (match (at0 (mem1 0xFF40 0)).check (mem1 0xFF40 0) k 4 (((mem1 0xFF40 0).u64 6).toNat) 4 with
     | .ok acc sd => !acc.isAlias && !sd && (mem1 0xFF40 0).ctx.canRaise (flagOf 5) [acc.path]
     | _ => false) = true := by decide

/-- The stops of a scalar access: an address outside the share, one that no translation holds, one of an absent page, an alias with a
lane block queued, a shared-deterministic page without the token, a full counter, 2^48, an odd atomic. -/
def sdPage : Tlb := { pte := 0x2C00000000000002 }
def busyLanes : Group := { mem1 0xFFA0 0 with k := { queue := [(0, 1)] } }
def fullPath : Group := { mem1 0xFF40 0 with k := { paths := [255, 0, 0, 0, 0] } }
theorem test_accessStopsHold :
    (match (at0 (mem1 0xFF40 2048)).check (mem1 0xFF40 2048) .read 1 (((mem1 0xFF40 2048).u64 6).toNat) 4 with
     | .trap .sliceUnmapped _ => true | _ => false) = true ∧
    (match (at0 (mem1 0 64)).check (mem1 0 64) .read 1 64 4 with | .miss _ _ => true | _ => false) = true ∧
    (match ({ at0 (mem1 0 64) with unanswered := [{}] } : State).check (mem1 0 64) .read 1 64 4 with
     | .absent _ => true | _ => false) = true ∧
    (match (at0 busyLanes).check busyLanes .read 1 (busyLanes.u64 6).toNat 4 with
     | .ok a _ => a.isAlias && !busyLanes.ctx.laneIdle | _ => false) = true ∧
    (let s : State := { strictAt (mem1 0 64) with tlbs := [sdPage] }
     (match s.check (mem1 0 64) .write 1 64 4 with | .ok a sd => !a.isAlias && sd | _ => false) = true ∧
     (s.gridOf (mem1 0 64)).strict = true ∧ s.holdsToken (mem1 0 64) = false) ∧
    (match (at0 fullPath).check fullPath .read 1 (fullPath.u64 6).toNat 4 with
     | .ok a sd => !sd && !fullPath.ctx.canRaise none [a.path] | _ => false) = true ∧
    2 ^ 48 ≤ ((mem1 0x10000 0).u64 6).toNat ∧ ((mem1 0xFF40 2).u64 6).toNat % 4 ≠ 0 := by decide

/-- An operation of one run in the own core store, first of its path. -/
def opOf (k : MemKind) (d : Dst) (n : Nat) (data : List Byte) : Op :=
  { work := .mem k d [{ locs := [(.mem .core 64, n)], data := data }], paths := [0], flag := some 1 }
def holding (o : Op) : Group := { grp [] with ops := [o], nextOp := 1 }
theorem noWatch_at (g : Group) : NoWatch (at0 g) := by
  intro die core k hc hk
  have h : ∀ off, off ≠ wdBase → (regReset off).getLsbD 31 = false := by
    intro off ho
    unfold regReset
    repeat (first | split | rfl | simp_all)
  refine h _ ?_
  unfold dbWpCtl wdBase dbBase
  omega

theorem test_returnsHold : ∀ e ∈ [(MemKind.load 1 true, Dst.uni 4, 1, []), (.load 2 false, .uni 4, 2, []), (.load 4 false, .uni 4, 4, []),
    (.load 8 false, .uni 4, 8, []), (.store, .none, 3, [1, 2, 3]), (.atomic { op := 9, size := 4 }, .uni 4, 4, leBytes 8 7),
    (.atomic { op := 0, size := 4 }, .uni 4, 4, leBytes 4 7), (.atomic { op := 8, size := 8 }, .uni 4, 8, leBytes 8 7)],
    let o := opOf e.1 e.2.1 e.2.2.1 e.2.2.2
    Returning (at0 (holding o)) 0 0 (holding o) o e.1 e.2.1 { locs := [(.mem .core 64, e.2.2.1)], data := e.2.2.2 } .core 64 e.2.2.1 := by
  intro e he
  simp only [List.mem_cons, List.not_mem_nil, or_false] at he
  rcases he with rfl | rfl | rfl | rfl | rfl | rfl | rfl | rfl <;>
    exact ⟨rfl, rfl, rfl, by decide, by decide, rfl, by decide, noWatch_at _, rfl⟩

/-- Bytes that read as correct, and bytes that read as uncorrectable. -/
theorem test_poisonHolds : (at0 (grp [])).poisoned .core 64 8 = false ∧
    ({ at0 (grp []) with poison := [(.core, 64)] } : State).poisoned .core 64 4 = true := by decide

/-- A return that answers a next state with no watchpoint enabled. -/
theorem test_returnFrameHolds : NoWatch (at0 (holding (opOf .store .none 1 [5]))) ∧
    (∃ t, exec (.accessReturn 0 0) (at0 (holding (opOf .store .none 1 [5]))) = .next t) ∧
    (opOf .store .none 1 [5]).work = .mem .store .none [{ locs := [(.mem .core 64, 1)], data := [5] }] :=
  ⟨noWatch_at _, ⟨_, rfl⟩, rfl⟩

/-- Register-only instructions at rest: one that goes on, and one that traps. -/
theorem test_frameHolds : Calm (grp []) ∧ (registerOnly (.add 4 5 6 false)).isSome = true ∧
    (∃ t, exec (.add 4 5 6 false) (at0 (grp [])) = .next t) ∧ (∃ t, exec (.srd 4 0) (at0 (grp [])) = .next t) ∧
    (at0 (grp [])).group? (grp []).uid = some (grp []) := ⟨⟨rfl, rfl⟩, by decide, ⟨_, rfl⟩, ⟨_, rfl⟩, by decide⟩

/-! ### Control flow, dispatch, waits -/

/-- Targets at both ends of the section and just outside it. -/
theorem test_controlFlowHolds : InSection (at0 (grp [])) (grp []) 0 ∧ InSection (at0 (grp [])) (grp []) 60 ∧
    ¬ InSection (at0 (grp [])) (grp []) 64 ∧ ¬ InSection (at0 (grp [])) (grp []) (-4) ∧ (grp []).ctx.qget 7 ≠ false ∧
    (grp []).ctx.qget 0 = false ∧ ((grp [(4, 60)]).u 4).toNat % 4 = 0 ∧ ((grp [(4, 62)]).u 4).toNat % 4 ≠ 0 ∧ (grp [(4, 1)]).u 4 = 1 := by
  unfold InSection
  decide

def queued (n : Nat) : Group := { grp [(4, 16), (5, 0x10000)] with k := { queue := List.replicate n (0, 1) } }
theorem test_dispatchHolds : 15 < (at0 (queued 7)).laneCount (queued 7) ∧ (queued 7).ctx.queue.length < 8 ∧
    8 ≤ (queued 8).ctx.queue.length ∧ (at0 (queued 0)).laneCount (queued 0) ≤ ((queued 0).u 4).toNat ∧
    ((queued 0).u 4).toNat < 2 ^ 16 ∧ 2 ^ 16 ≤ ((queued 0).u 5).toNat := by decide

/-- A group with a flag and a counter up, one with a deferred fault on them, at rest, and a marked landing counter. -/
def waiting : Group := { grp [(4, 1), (5, 0x80000001), (6, 255)] with k := { flags := [1, 0, 0, 0, 0, 0, 0, 0, 0, 0, 0, 0], paths := [2, 0, 0, 0, 0] } }
def faulty : Group := { grp [] with deferred := [{ op := 3, flag := some 2, paths := [0] }] }
theorem test_waitsHold : (grp []).ctx.queue = [] ∧ (grp []).ctx.busy = false ∧ waiting.ctx.flag 0 ≠ 0 ∧ (1 : BitVec 12).getLsbD 0 = true ∧
    (∀ f, f < 12 → (grp []).ctx.flag f = 0) ∧ (waiting.u 4).toNat < waiting.ctx.counter 0 ∧ 255 ≤ (waiting.u 6).toNat ∧
    (grp []).ctx.counter 4 ≤ ((grp []).u 4).toNat ∧ (∃ d ∈ faulty.deferred, d.flag = some 2) ∧
    (waiting.u 5).getLsbD 31 = true ∧ (waiting.u 4).getLsbD 31 = false ∧ (waiting.u 4).toNat % 2 ^ 31 ≠ 0 := by
  decide

theorem noFault_grp (u : Regs) : NoFault (grp u) := rfl

theorem test_fencesHold : NoFault (grp []) ∧ (grp []).ctx.laneIdle = true ∧ (grp []).pathsZeroAll = true ∧
    (at0 (grp [])).relDone (grp []) = true ∧ (grp []).ops = [] ∧ (queued 1).ctx.laneIdle = false ∧ waiting.pathsZeroAll = false ∧
    (∃ o ∈ (holding (opOf .store .none 1 [5])).ops, o.work.isStore = true) ∧
    (∃ o ∈ (holding { work := .mzero 0 1 }).ops, o.work.isMatrix = true ∧ o.level = (grp []).mode.level) :=
  ⟨noFault_grp [], by decide, by decide, by decide, rfl, by decide, by decide, ⟨_, List.mem_singleton.mpr rfl, by decide⟩,
    ⟨_, List.mem_singleton.mpr rfl, by decide⟩⟩

theorem released_grp (u : Regs) : Released (at0 (grp u)) (grp u) := ⟨rfl, rfl, noFault_grp u⟩

/-- A barrier of a block of one group, which its only arrival completes, and of one that waits for two. -/
theorem test_barriersHold : AtBarrier (at0 (grp [(4, 1), (5, 2)])) (grp [(4, 1), (5, 2)]) 15 ∧ Released (at0 (grp [])) (grp []) ∧
    (at0 (grp [])).block? (grp []).block = some placedBlock ∧ placedBlock.bars[15]? = some ({} : Barrier) ∧
    15 < (grp []).barLast.length ∧ (grp []).barAt = none ∧ ((grp [(4, 1)]).u 4).toNat = ({} : Barrier).arr + 1 ∧
    ({} : Barrier).arr + 1 ≠ ((grp [(5, 2)]).u 5).toNat ∧ (at0 (grp [])).arrivalDone (grp []) 15 = true ∧
    (at0 { grp [] with barLast := setNth (List.replicate 16 none) 15 (some 0) }).arrivalDone
      { grp [] with barLast := setNth (List.replicate 16 none) 15 (some 0) } 15 = false ∧
    (at0 (grp [])).holdsToken (grp []) = false ∧ (tokenAt (grp [])).holdsToken (grp []) = true ∧
    ((tokenAt (grp [])).gridOf (grp [])).strict = true :=
  ⟨⟨rfl, by decide, by decide⟩, released_grp [], rfl, rfl, by decide, rfl, by decide, by decide, by decide, by decide, by decide,
    by decide, rfl⟩

/-- A switch point at the PC with a request, ready and not; the token held and not; a group that may exit. -/
def switching (s : State) : State := { s with
  grids := [{ placedGrid with variants := [{ placedVariant with switches := [{ n := 15, off := 0 }] }] }]
  blocks := [{ placedBlock with req := some {} }] }
theorem test_tokenSwitchExitHold : ((at0 (grp [])).gridOf (grp [])).strict = false ∧ ((strictAt (grp [])).gridOf (grp [])).strict = true ∧
    (strictAt (grp [])).holdsToken (grp []) = false ∧ (tokenAt (grp [])).holdsToken (grp []) = true ∧
    (((switching (at0 (grp []))).variantOf (grp [])).switches.any fun e => e.n == 15 && e.off == (grp []).k.pc.toNat) = true ∧
    (((at0 (grp [])).variantOf (grp [])).switches.any fun e => e.n == 15 && e.off == (grp []).k.pc.toNat) = false ∧
    ((switching (at0 (grp []))).blockOf (grp [])).req ≠ none ∧ (switching (at0 (grp []))).switchReady (grp []) = true ∧
    (switching (at0 waiting)).switchReady waiting = false ∧ (at0 (grp [])).exitWait (grp []) = none ∧
    ((at0 waiting).exitWait waiting).isSome = true ∧ NoFault (grp []) :=
  ⟨by decide, by decide, by decide, by decide, by decide, by decide, by decide, by decide, by decide, by decide, by decide,
    noFault_grp []⟩

/-- One copy slot in the own share, none, 65; a cancel; launches at depth 9 and 10; a child that runs. -/
def slotRegs : Group := grp [(4, 0), (5, 0xFF40), (6, 1), (8, 65)]
theorem test_copiesHold : slotRegs.u 10 = 0 ∧ 64 < (slotRegs.u 8).toNat ∧ slotRegs.u 6 ≠ 0 ∧ (slotRegs.u 6).toNat ≤ 64 ∧
    (at0 slotRegs).ownRange slotRegs (slotRegs.u64 4).toNat 32 32 = .inr 0 ∧ slotRegs.localBusy = false ∧
    (at0 slotRegs).engineSlots 0 0 + 1 ≤ Config.engineSlots ∧ (at0 slotRegs).ownBad slotRegs 0 32 = false ∧
    (slotRegs.u 6).toNat < 2 ^ 16 ∧ 2 ^ 16 ≤ ((grp [(4, 0x10000)]).u 4).toNat ∧
    10 ≤ (({ at0 slotRegs with grids := [{ placedGrid with depth := 10 }] } : State).gridOf slotRegs).depth ∧
    ((at0 slotRegs).gridOf slotRegs).depth < 10 ∧ (at0 slotRegs).poolFull 0 0 = false ∧
    (∃ k ∈ [({ parent := some 0 } : Grid)], k.parent = some (grp []).uid ∧ k.joined = false ∧ k.st = .active) ∧
    (∀ k ∈ (at0 (grp [])).grids, k.parent ≠ some (grp []).uid) := by decide

/-- A semaphore at 0, at 1 and at all ones; a barrier object at zero, marked, of another generation, and running. -/
def object (count gen : Nat) : State := (at0 (mem1 0xFF40 0)).writeMem .core 0 (leBytes 16 (count + 2 ^ 64 * gen))
theorem test_semaphoresHold : (at0 (grp [])).reg 0 (pkSem 0 63) = 0 ∧ ((at0 (grp [])).setReg 0 (pkSem 0 63) 1).reg 0 (pkSem 0 63) ≠ 0 ∧
    ((at0 (grp [])).setReg 0 (pkSem 0 63) (BitVec.allOnes 32)).reg 0 (pkSem 0 63) = BitVec.allOnes 32 ∧
    (∀ e ∈ [(0, 0), (2 ^ 31 + 5, 0), (5, 1), (5, 0)],
      (match (object e.1 e.2).check (mem1 0xFF40 0) .read 16 ((mem1 0xFF40 0).u64 6).toNat 16 with
       | .ok acc _ => ((object e.1 e.2).performAt (mem1 0xFF40 0) (.load 16 false) acc).fault.isNone &&
           leNat ((object e.1 e.2).performAt (mem1 0xFF40 0) (.load 16 false) acc).got == e.1 + 2 ^ 64 * e.2
       | _ => false) = true) ∧ (mem1 0xFF40 0).ops = [] := by decide

/-! ### Matrix instructions, draws, the handler -/

/-- Descriptor words at the ends of the window of 64 tiles, beyond it, and with a reserved bit. -/
theorem test_tilesHold : Tiles (grp [(4, 63)]) ((grp [(4, 63)]).u 4).toNat 63 1 ∧ Tiles (grp [(4, 63 * 1024)]) ((grp [(4, 63 * 1024)]).u 4).toNat 0 64 ∧
    (grp []).ctx.canRaise (flagOf 5) [] = true ∧ ((grp [(4, 0x100000)]).u 4).toNat / 2 ^ 20 ≠ 0 ∧
    (grp []).window < ((grp [(4, 64)]).u 4).toNat % 2 ^ 10 + (((grp [(4, 64)]).u 4).toNat / 2 ^ 10 + 1) :=
  ⟨by constructor <;> decide, by constructor <;> decide, by decide, by decide, by decide⟩

/-- A transfer of one tile: from the own share; a store to a shared-deterministic page with the token, and held without it. -/
def sdState (s : State) : State := { s with tlbs := [sdPage] }
theorem test_transfersHold :
    (match (at0 (mem1 0xFF40 0)).checkRange (mem1 0xFF40 0) .read ((mem1 0xFF40 0).u64 6).toNat 1024 with
     | .ok _ sd => !sd | _ => false) = true ∧
    ([sdState (strictAt (mem1 0 0)), sdState (tokenAt (mem1 0 0))].all fun s =>
      match s.checkRange (mem1 0 0) .write ((mem1 0 0).u64 6).toNat 1024 with
      | .ok _ sd => (s.gridOf (mem1 0 0)).strict && sd && decide ((mem1 0 0).heldCount < 4) | _ => false) = true ∧
    (sdState (tokenAt (mem1 0 0))).holdsToken (mem1 0 0) = true := by decide

/-- An `mqt` of 32 by 32 elements of 4 bits in a share of 1024 bytes; an `mma` of 16 by 16 by 16; one without segments. -/
def fed (u : Regs) : Group := { grp u with segA := some { len := 16 }, segB := some { base := 16, len := 16 } }
theorem test_mqtHolds : (at0 (grp [])).mqtFault (grp []) 0x800000 0 512 512 = none := by decide
theorem test_mmaHolds : (at0 (fed [])).mmaFault (fed []) {} = none ∧ ({} : MmaDesc).wide = false ∧ ({} : MmaDesc).consume false = false ∧
    ({} : MmaDesc).consume true = false ∧ (at0 (grp [])).mmaFault (grp []) {} = some (.matrixCombination, 0) := by decide

/-- Claims of 0, of all positions and of one more; a segment that fits, and one that does not beside another group's. -/
def beside : State := { at0 (grp []) with groups := [grp [], { grp [] with uid := 1, segA := some { len := 2048 } }] }
theorem test_segmentsHold : (grp []).u 5 = 0 ∧ Config.streamPositions 2 < ((grp [(5, 257)]).u 5).toNat ∧
    ((grp [(5, 256)]).u 5).toNat ≤ Config.streamPositions 2 ∧ (grp []).matrixDone = true ∧
    (at0 (grp [])).segmentFit (grp []) 0 2048 = some 0 ∧ beside.segmentFit (grp []) 0 1 = none ∧ (fed []).seg 0 = some { len := 16 } ∧
    (grp []).seg 0 = none := by decide

/-- Descriptors in the own share: a draw of 1 logit, one of none; a round with nothing to draw, one too wide; a band. -/
def described (n : Nat) (bs : List Byte) : State := (at0 (mem1 0xFF40 0)).writeMem .core 0 (bs ++ List.replicate (n - bs.length) 0)
theorem test_drawHolds : (described 32 []).ownDesc (mem1 0xFF40 0) ((mem1 0xFF40 0).u64 6).toNat 32 32 = .inr 0 ∧
    (mem1 0xFF40 0).localBusy = false ∧ (described 32 []).ownBad (mem1 0xFF40 0) 0 32 = false ∧ (mem1 0xFF40 0).heldCount < 4 ∧
    (ddrawFault 0 ((described 32 []).ownBytes (mem1 0xFF40 0) 0 32)).isSome = true ∧ ddrawFault 1 (leBytes 32 0) = none := by decide
/-- The own share at 0xFF4000000000 holds the packet of a round; a band of 8 pixels for slot 0 of the partition. -/
def slotted : State := ((described 32 []).setReg 0 (egSlot 0 0xC) 0x80000000).setReg 0 egLock 1
theorem test_roundAndBandHold : (described 64 []).ownDesc (mem1 0xFF40 0) ((mem1 0xFF40 0).u64 6).toNat 64 64 = .inr 0 ∧
    (described 64 []).ownBad (mem1 0xFF40 0) 0 64 = false ∧
    (described 64 []).dposFault (mem1 0xFF40 0) (leBytes 64 (0xFF4000000000 * 2 ^ 160 * 2 ^ 160)) = none ∧
    ((described 64 []).dposFault (mem1 0xFF40 0) (leBytes 64 (2 ^ 250 * 2 ^ 250))).isSome = true ∧
    slotted.xbandFault 0 (leBytes 32 (7 * 2 ^ 64)) = none ∧ (slotted.xbandFault 0 (leBytes 32 (2 ^ 255))).isSome = true := by decide

/-- A trap that the vector handles, one that it does not, and a path inside a clause. -/
def vectored : State := { at0 (grp []) with grids := [{ placedGrid with vector := { handled := 0xFFFFFFFF, entry := 4, nested := 8 } }] }
def software : Trap := { code := .software }
theorem test_trapsHold : (grp []).mode = .kernel ∧ AtRest (grp []) ∧ (vectored.gridOf (grp [])).vector.handles software.code = true ∧
    software.code ≠ .preempt ∧ ((at0 (grp [])).gridOf (grp [])).vector.handles software.code = false ∧
    (placedGroup true false).atBoundary = false ∧ (hand []).mode = .handler ∧ ({ hand [] with mode := .nested } : Group).mode = .nested :=
  ⟨rfl, ⟨by decide, by decide, by decide⟩, by decide, by decide, by decide, by decide, rfl, rfl⟩

/-- A handler entered by a trap, by a save and by a restore, whose resume PC lies in the section, is odd, lies beyond it. -/
theorem released_hand (u : Regs) (e : EntryKind) : Released (at0 { hand u with entry := e }) { hand u with entry := e } :=
  ⟨rfl, rfl, rfl⟩
theorem test_returnsFromTrapsHold : ([(60 : Word), 62, 64].all fun pc =>
      (at0 (hand [(30, pc)])).group? 0 == some (hand [(30, pc)]) && Cells.get 0 (hand [(30, pc)]).sureg 30 == pc) = true ∧
    (hand []).entry = .trap ∧ ((at0 (hand [])).variantOf (hand [])).scalarSize = 64 ∧
    (hand []).k.pc.toNat % 4 = 0 ∧ (hand []).k.pc.toNat + 4 ≤ ((at0 (hand [])).variantOf (hand [])).scalarSize ∧
    Released (at0 { hand [] with entry := .save }) { hand [] with entry := .save } ∧
    Released (at0 { hand [] with entry := .restore }) { hand [] with entry := .restore } :=
  ⟨by decide, by decide, by decide, by decide, by decide, released_hand [] .save, released_hand [] .restore⟩

/-- Words of a class at both ends of its extent, and the next; a handler's lane stream at work. -/
theorem test_controlStateHolds : Handler (hand []) ∧ (hand []).ctx.laneIdle = true ∧ (at0 (hand [])).inExtent (hand []) 0 0 = true ∧
    (at0 (hand [])).inExtent (hand []) 0 127 = true ∧ (at0 (hand [])).inExtent (hand []) 0 128 = false ∧ (hand []).entry ≠ .restore ∧
    ({ hand [] with h := { queue := [(0, 1)] } } : Group).ctx.laneIdle = false ∧ (∀ r ∈ [4, 31], r < (hand []).ulimit) := by
  refine ⟨.inl rfl, ?_, ?_, ?_, ?_, ?_, ?_, ?_⟩ <;> decide

/-- A sync with no access to wait for, and with one in flight. -/
def invalidating : Group := { hand [] with inval := [(0, 0)], ops := [opOf .store .none 1 [5]], nextOp := 1 }
theorem test_tlbHolds : (at0 (hand [])).invBusy (hand []) = false ∧ (at0 invalidating).invBusy invalidating = true ∧ Handler invalidating :=
  ⟨by decide, by decide, .inl rfl⟩

/-- A handler and a message of 1 word; g32 in handler mode, and the last register of the window. -/
theorem test_modesHold : Handler (hand []) ∧ (grp []).mode = .kernel ∧ (1 : BitVec 16) ≠ 0 ∧ (15 : BitVec 16).toNat ≤ 15 ∧
    ([(31 : Reg), 32].find? fun x => decide ((hand []).ulimit ≤ x.toNat)) = some 32 ∧ ([511].all fun r => decide (r < (grp []).ulimit)) = true :=
  ⟨.inl rfl, rfl, by decide, by decide, by decide, by decide⟩

/-! ### Lane instructions -/

/-- The state in which the first lane path of a group issues, and such a group: all its lanes active, the last instruction of a
clause with both flags, registers and flags as given. -/
def laneAt (g : Group) : State :=
  { State.reset.withFetchWord 96 0 with agenda := [], groups := [g], cur := some { group := 0, lane := true }
                                        parts := [{ placedPart with a := { placedPart.a with sbSize := 1 } }] }
def lanes (u : Regs) (flags : List Nat) : Group :=
  { placedGroup true false with ureg := u, k := { (placedGroup true false).k with flags := flags } }
def calm : Group := lanes [(6, 0), (7, 0xFF40), (12, 0), (13, 0)] (List.replicate 12 0)
def full : Group := lanes [(6, 0), (7, 0xFF40)] (List.replicate 12 255)
/-- What the path sees when it issues an instruction. -/
def sees (i : Instr) (g : Group) : LaneIn :=
  match i.laneRule with
  | some (l, r) => laneInput (laneAt g) g false 0 l r
  | none => laneInput (laneAt g) g false 0 (lop .b32 .reg 0 0 0 0 0) (ctlRule (lop .b32 .reg 0 0 0 0 0) .reg .zero false false)
/-- Nothing bars the instruction. -/
def clear (g : Group) (i : Instr) : Bool :=
  match i.laneRule with
  | some (l, r) => ((laneAt g).barred g false i l r).isNone
  | none => false

/-- An instruction that nothing bars has its turn. -/
theorem laneTurn_at {g : Group} {i : Instr} (hg : (laneAt g).group? 0 = some g) (h : clear g i = true) :
    LaneTurn (laneAt g) i { group := 0, lane := true } g (sees i g) := by
  refine ⟨rfl, hg, ?_⟩
  unfold clear at h
  unfold sees
  cases hr : i.laneRule with
  | none => rw [hr] at h; cases h
  | some lr => rw [hr] at h; exact ⟨lr.1, lr.2, rfl, by simpa using h, rfl⟩

/-- Lane operations of a type in the forms that read registers, a uniform register and memory. -/
def r (ty : Ty) : LaneOp := lop ty .reg 4 6 8 10 0
def un (n : Word) : LaneOp := lop .b32 .uni 4 6 8 10 n
def me (ty : Ty) (vd vc : BitVec 8) : LaneOp := lop ty .mem vd 3 8 vc 0

/-- Nothing bars any of these, for a type of each statement about them. -/
def allClear (is : List Instr) : Bool := is.all (clear calm)
theorem test_laneElementsHold : allClear ([Ty.i8x4, .n16x2, .i64].flatMap fun t => (laneIntRows (elemBits t)).map fun e => e.1 (r t)) = true ∧
    allClear [.vabs (r .i32), .vneg (r .n64), .vabs (r .f16x2), .vneg (r .f32)] = true ∧
    allClear (laneBitRows.map fun e => e.1 (r .n64)) = true ∧
    allClear ([Ty.i32, .n64].flatMap fun t => (laneShiftRows (elemBits t)).map fun e => e.1 (r t)) = true := by decide
theorem test_laneBitsHold : allClear [.vclz (r .b32), .vpopc (r .n32), .vbrev (r .i32), .vbfe (r .i32), .vbfe (r .n32), .vbfi (r .b32),
    .vaddc { r .n32 with vc := 6 }, .vsubb { r .n32 with vc := 0 }, .vsad (r .n8x4), .vdp4 (r .i8x4), .vsad (r .n16x2)] = true := by decide
theorem test_lanePredicatesHold : allClear ([0, 1, 2, 3, 4, 5].map fun k => .vcmp { r .i32 with vd := 6, vc := k }) = true ∧
    allClear ([0, 1, 2, 3, 4, 5, 6].map fun k => .vpop { r .b32 with vd := 6, va := 0, vb := 7, vc := k }) = true ∧
    allClear [.vsel { r .i32 with vc := 7 }, .vsel { r .n64 with vc := 0 }, .vfcmp { r .f32 with vd := 0, vc := 7 }] = true := by decide
theorem test_laneFloatsHold : allClear ([Ty.f32, .f16x2, .bf16x2].flatMap fun t => laneFloatRows.map fun e => e.1 (r t)) = true ∧
    allClear (lanePatternRows.map fun e => e.1 (r .f32)) = true ∧ allClear [.vdot2 (r .f16x2), .vfscl (r .f32)] = true ∧
    (fp32.isNan 0x7FC00000 || fp32.isNan 0) = true ∧ fp32.isNan 0x3F800000 = false := by decide
theorem test_laneConversionsHold : Ty.ofCode 1 = some .i32 ∧ cvtOk .f32 .i32 = true ∧ allClear [.vcvt { r .f32 with vc := 1 },
      .vpack { r .f16x2 with vc := 0 }, .vunpk { r .f16x2 with vc := 1 }, .vquant { r .e4m3x4 with vc := 3 },
      .vquantScale { r .e4m3x4 with vc := 0x80 }, .vmov (r .i64), .vmovi (lop .f32 .imm 4 0 0 0 1),
      .vsrd (lop .b32 .imm 4 0 0 0 0x16), .vsrd (lop .b32 .imm 4 0 0 0 0x09)] = true ∧ 1 < Ty.f16x2.elems ∧ 1 < Ty.e4m3x4.elems ∧
    (laneAt calm).laneReads calm 0x1F = false ∧ (laneAt calm).laneReads calm 0x17 = true ∧ (laneAt calm).sreg calm 9 = some 0 := by
  decide
theorem test_laneCollectivesHold : allClear ([0, 1, 2, 3].map fun k => .vshfl { r .b32 with vc := k }) = true ∧
    allClear ([0, 5, 8, 13].map fun k => .vscan { r .n32 with vc := k }) = true ∧
    allClear [.vred { r .n32 with vb := 0, vc := 5 }, .vballot { r .b32 with va := 6 }, .vfirst (r .b32)] = true ∧
    (sees (.vred (r .n32)) calm).g.ctx.canRaise (sees (.vred (r .n32)) calm).flag [] = true ∧
    (sees (.vred (r .n32)) full).g.ctx.canRaise (sees (.vred (r .n32)) full).flag [] = false ∧ clear full (.vred (r .n32)) = true ∧
    (sees (.vballot (r .b32)) calm).g.ctx.canRaise (sees (.vballot (r .b32)) calm).flag [] = true ∧
    ([[1], [1, 2]].all fun v => let g := { grp [] with ops := [{ work := .collective 4 v }], nextOp := 1 }
      (at0 g).group? 0 == some g && g.op? 0 == some { work := .collective 4 v }) = true := by decide

/-- The lanes of an access, each with its answer. -/
def accOf (x : LaneIn) (k : AccKind) (al size : Nat) (addr : Nat → Int) (n : Nat) : Acc :=
  match (laneAt calm).check x.g k al (addr n) size with
  | .ok a _ => a
  | _ => {}
/-- Every lane passes its check without a shared-deterministic page. -/
def pass (x : LaneIn) (k : AccKind) (al size : Nat) (addr : Nat → Int) : Bool :=
  (List.range 32).all fun n => match (laneAt calm).check x.g k al (addr n) size with
    | .ok _ sd => !sd
    | _ => false
theorem passes_at {x : LaneIn} {k : AccKind} {al size : Nat} {addr : Nat → Int} (h : pass x k al size addr = true)
    (ha : x.p.again = none)
    (hr : x.g.ctx.canRaise x.flag ((lanesOf x.ex).map fun n => (accOf x k al size addr n).path).eraseDups = true) :
    LanesPass (laneAt calm) x k al size addr (accOf x k al size addr) := by
  refine ⟨fun n hn _ => ?_, ha, hr⟩
  have h1 := (List.all_eq_true.mp h) n (List.mem_range.mpr hn)
  unfold accOf
  cases hc : (laneAt calm).check x.g k al (addr n) size with
  | ok a sd => exact ⟨sd, rfl, fun hs => by rw [hc] at h1; simp [hs] at h1⟩
  | _ => rw [hc] at h1; cases h1
def accesses : List (Instr × AccKind × Nat × Nat × BitVec 8) :=
  [(.vld (me .n32 4 2), .read, 1, 4, 2), (.vld (me .b32 4 4), .read, 1, 16, 4), (.vst (me .n32 1 10), .write, 1, 2, 1),
   (.vatom (me .n32 4 9), .atomic, 4, 4, 9), (.vmred (me .n64 0 10), .atomic, 8, 8, 0)]
theorem test_laneMemoryHolds : ∀ e ∈ accesses, clear calm e.1 = true ∧ LanesPass (laneAt calm) (sees e.1 calm) e.2.1 e.2.2.1 e.2.2.2.1
    (laneAddress (sees e.1 calm) e.2.2.2.2) (accOf (sees e.1 calm) e.2.1 e.2.2.1 e.2.2.2.1 (laneAddress (sees e.1 calm) e.2.2.2.2)) := by
  intro e he
  simp only [accesses, List.mem_cons, List.not_mem_nil, or_false] at he
  rcases he with rfl | rfl | rfl | rfl | rfl <;> exact ⟨by decide, passes_at (by decide) (by decide) (by decide)⟩
/-- A lane address outside the share, in no lane a miss; a prefetch. -/
theorem test_laneTrapHolds : clear calm (.vld { me .n32 4 2 with imm := 0x1000 }) = true ∧
    (let x := sees (.vld { me .n32 4 2 with imm := 0x1000 }) calm
     (List.range 32).all fun n => match (laneAt calm).check x.g .read 1 (laneAddress x 2 n) 4 with
       | .trap .sliceUnmapped _ => true
       | _ => false) = true ∧ clear calm (.vprf (me .b32 0 1)) = true := by decide

/-- A register beyond the window, a clause without flags. -/
def small : Group := { calm with vwin := 8 }
def flagless : Group := { calm with k := { calm.k with p0 := { calm.k.p0 with setA := none } } }
theorem test_laneBarsHold : clear small (.vadd (r .i32)) = false ∧ clear small (.vadd (lop .i32 .reg 4 5 6 0 0)) = true ∧
    clear flagless (.vred (r .n32)) = false ∧ (sees (.vadd (r .i32)) calm).ex = BitVec.allOnes 32 := by decide

/-- Headers whose flags are zero and one that waits; a block at the head of a queue; targets inside and outside the section of 16
instructions. -/
def awaited : Group := lanes [] [0, 0, 0, 0, 0, 0, 0, 0, 0, 0, 0, 1]
def queuedBlock : Group := { grp [] with k := { queue := [(15, 0xFFFF0000)] } }
theorem test_laneControlHolds : (laneAt awaited).group? 0 = some awaited ∧ (0x800 : BitVec 12).getLsbD 11 = true ∧ awaited.ctx.flag 11 ≠ 0 ∧
    (∀ f, f < 12 → (0x7FF : BitVec 12).getLsbD f = true → awaited.ctx.flag f = 0) ∧
    (at0 queuedBlock).group? 0 = some queuedBlock ∧ queuedBlock.ctx.busy = false ∧ queuedBlock.trapWaits = false ∧
    allClear [.vbr (lop .b32 .imm 0 0 0 0 0xF000F), .vbr (lop .b32 .imm 0 0 0 0 0x10), .vbrx (lop .b32 .imm 0 6 0 0 3), .vend (r .b32),
      .vexit (r .b32), .vnop (r .b32)] = true ∧ (laneAt calm).laneCount calm = 16 ∧ (calm.k.path false).serial = none := by decide

theorem noFault_lanes (u : Regs) (f : List Nat) : NoFault (lanes u f) := rfl

/-- Streams with a segment, tiles at both sides of the window and of 1024, views, and engine commands with room. -/
def segmented : Group := { calm with segA := some { len := 16 } }
theorem test_laneUnitsHold : clear segmented (.vfeed (lop .b32 .imm 0 6 0 0 0)) = true ∧ segmented.seg 0 ≠ none ∧
    clear calm (.vfeed (lop .b32 .imm 0 6 0 0 0)) = true ∧ calm.seg 0 = none ∧
    allClear [.vaccr (lop .b32 .imm 4 0 0 0 63), .vaccw (lop .b32 .imm 0 8 0 0 63)] = true ∧
    (lane (sees (.vaccr (lop .b32 .imm 4 0 0 0 63)) calm).b.lo 0).toNat = 63 ∧ 63 < calm.window ∧
    ([(64 : Word), 1023].all fun e => !clear calm (.vaccr (lop .b32 .imm 4 0 0 0 e))) = true ∧
    (laneAt calm).viewFault calm 0 = none ∧ (viewOf 0).tile 0 ≠ none ∧
    allClear [.vsamp (lop .b32 .uni 0 8 0 0 12), .vtrace (lop .b32 .uni 4 8 0 0 12), .vprobe (lop .b32 .uni 4 8 0 0 12),
      .vtex (lop .b32 .uni 4 8 0 0 12), .vsgat (lop .b32 .uni 4 8 0 10 12), .vrowpk (lop .b32 .uni 1 8 0 12 6)] = true ∧
    ([Instr.vsamp (lop .b32 .uni 0 8 0 0 12), .vtrace (lop .b32 .uni 4 8 0 0 12), .vrowpk (lop .b32 .uni 1 8 0 12 6)].all fun i =>
      (sees i calm).g.ctx.canRaise (sees i calm).flag [4]) = true ∧
    0 + 32 ≤ ((laneAt calm).ownShare calm).2 ∧
    (let x := sees (.vrowpk (lop .b32 .uni 1 8 0 12 6)) calm
     pass x .write 1 4 fun n => ((x.b.wide 0).toNat + 4 * (lane x.c.lo n).toNat : Nat)) = true ∧
    ((laneAt calm).gridOf calm).strict = false := by decide

/-- A fixed-latency instruction on a path with nothing on the way. -/
theorem test_laneFrameHolds : laneDests (.vaddc (r .n32)) ≠ none ∧ CalmPaths calm ∧ calm.ctx.p0.pend = [] ∧ calm.ctx.p1.pend = [] ∧
    ∃ t, exec (.vadd (r .i32)) (laneAt calm) = .next t := ⟨by decide, ⟨rfl, rfl⟩, rfl, rfl, ⟨_, rfl⟩⟩

/-! ### Events: operations -/

/-- A state and its group hold an operation. -/
def pends (s : State) (g : Group) (o : Op) : Bool := s.group? 0 == some g && g.op? o.id == some o
theorem pending_of {s : State} {g : Group} {o : Op} (h : pends s g o = true) : Pending s 0 o.id g o := by
  simp only [pends, Bool.and_eq_true, beq_iff_eq] at h
  exact ⟨h.1, h.2⟩
/-- A group with streams and one operation, and the state that it stands in. -/
def does (w : Work) : Op := { work := w, flag := some 1, seq := 1 }
def doing (w : Work) : Group := { fed [] with ops := [does w], nextOp := 1 }
def inFlight (w : Work) : State := at0 (doing w)
def partner : MmaDesc := { pair := some 0 }
/-- An `mma` that stands behind another, one with a spoiled source, a pair. -/
def behind : Group := { fed [] with ops := [does (.mma {}), { does (.mma {}) with id := 1, seq := 2 }], nextOp := 2 }
def spoiled : State := { inFlight (.mma {}) with poison := (List.range 8).flatMap fun r => [(.stream, groupKey 0 (32 * r)), (.stream, groupKey 0 (32 * r + 8))] }
theorem test_mmaCompletesHolds : pends (inFlight (.mma {})) (doing (.mma {})) (does (.mma {})) = true ∧
    (inFlight (.mma {})).tileTurn (doing (.mma {})) (does (.mma {})) = true ∧ ({} : MmaDesc).pair = none ∧
    (inFlight (.mma {})).mmaBad (doing (.mma {})) (doing (.mma {})) (does (.mma {})) {} = false ∧
    spoiled.mmaBad (doing (.mma {})) (doing (.mma {})) (does (.mma {})) {} = true ∧
    (at0 behind).tileTurn behind { does (.mma {}) with id := 1, seq := 2 } = false ∧
    (inFlight (.mma partner)).tileTurn (doing (.mma partner)) (does (.mma partner)) = true ∧
    partner.pair.bind (inFlight (.mma partner)).group? = some (doing (.mma partner)) := by decide

/-- Transfers that have their place, and that have none yet; the first and the last tile of the window. -/
def place : Acc := { locs := [(.mem .core 0, 1024)] }
def transfers : List Work :=
  [.mzero 0 64, .mtld 63 1 place, .mtld 0 1 { va := 0xFF4000000000 }, .mtst 0 1 place, .mtst 0 1 { va := 0xFF4000000000 },
   .vaccr 63 8 1, .vaccw 0 (BitVec.allOnes 32) [], .vaccw 63 1 []]
theorem test_transfersCompleteHold : (transfers.all fun w =>
    pends (inFlight w) (doing w) (does w) && (inFlight w).tileTurn (doing w) (does w) && !(inFlight w).transferStuck (doing w) (does w)) = true ∧
    place.locs ≠ [] ∧ ({ va := 0xFF4000000000 } : Acc).fault = none ∧
    (inFlight (.vaccr 63 8 1)).tilesBad (doing (.vaccr 63 8 1)) 0 63 1 = false ∧
    ({ inFlight (.vaccr 63 8 1) with poison := [(.tile, groupKey 0 (1024 * 63))] } : State).tilesBad (doing (.vaccr 63 8 1)) 0 63 1 = true := by
  decide

def quantising : Work := .mqt 0x800000 0 512 512
theorem test_mqtAndFeedHold : pends (inFlight quantising) (doing quantising) (does quantising) = true ∧
    (inFlight quantising).tileTurn (doing quantising) (does quantising) = true ∧
    (match mqtRanges 0x800000 0 512 512 with
     | [src, ss, _, _] => !(inFlight quantising).ownBad (doing quantising) src.1 src.2 &&
         !(inFlight quantising).ownBad (doing quantising) ss.1 ss.2 &&
         ({ inFlight quantising with poison := [(.core, 8 * (src.1 / 8))] } : State).ownBad (doing quantising) src.1 src.2
     | _ => false) = true ∧
    ([(1 : Word), BitVec.allOnes 32].all fun m => let w := Work.vfeed 0 0 8 1 m false
      pends (inFlight w) (doing w) (does w) && (doing w).seg 0 == some { len := 16 }) = true := by decide

/-- Commands of the base tier and of the draw unit. -/
def commands : List Work :=
  [.vsamp 0 [] false, .vsamp 0 [] true, .vtrace 0 4 [], .vprobe 0 0 4 [], .vtex 0 4 [], .vrowpk [], .vsgat 0 0 0 [] [] 0]
theorem test_enginesHold : (commands.all fun w => pends (inFlight w) (doing w) (does w) && (doing w).turnOf (does w)) = true ∧
    (inFlight (.vsamp 0 [] true)).holdsToken (doing (.vsamp 0 [] true)) = false ∧
    ({ inFlight (.vsamp 0 [] true) with tokens := [{}] } : State).holdsToken (doing (.vsamp 0 [] true)) = true := by decide

/-- A forwarded record inside the view and outside it. -/
def sampled : State := { at0 (grp []) with parts := [{ placedPart with a := { placedPart.a with sbSize := 1 } }] }
theorem test_forwardHolds : ([({ record := leBytes 32 0 } : Forward), { record := leBytes 32 0xFFFFFFFF }].all fun f =>
      { sampled with forwards := [f] }.forwards.find? (fun x => x.die == 0) == some f) = true ∧
    (sampled.die 0).retrain = false ∧ (viewOf 0).tile (word (leNat (leBytes 32 0))) = some 0 ∧ sampled.viewOut 0 0 (viewOf 0) = false ∧
    sampled.headBad 0 0 (viewOf 0) 0 = false ∧ (viewOf 0).tile (word (leNat (leBytes 32 0xFFFFFFFF))) = none := by decide

/-- A draw whose logits lie in the own share; a round with no draw, one with weights 0, one with a weight. -/
def drawn : Work := .ddraw 4 1 (leBytes 32 0xFF4000000000) [0, 0, 0]
def roundDesc (n : Nat) : List Byte := leBytes 64 (0xFF4000000000 + 2 ^ 64 * n)
def weighed (w : Work) : State := (inFlight w).writeMem .core 0 [1, 0]
theorem test_drawsCompleteHold : pends (inFlight drawn) (doing drawn) (does drawn) = true ∧
    (match (inFlight drawn).drawRead (doing drawn) (does drawn) 0xFF4000000000 4 with | .ok b _ => b.length == 4 | _ => false) = true ∧
    ([(0, false), (1, false), (1, true)].all fun e => let w := Work.dpos 4 (roundDesc e.1) [0, 0, 0]
      let s := if e.2 then weighed w else inFlight w
      pends s (doing w) (does w) && (roundOf (roundDesc e.1)).map == 0xFF4000000000 && (roundOf (roundDesc e.1)).n == e.1 &&
      (match s.drawRead (doing w) (does w) 0xFF4000000000 2 with
       | .ok b _ => leNat b == e.2.toNat
       | _ => false)) = true := by decide

/-! ### Events: arrivals -/

/-- Accesses to a slice and to a peer that have arrived nowhere. -/
def sliceAcc : Acc := { slice := true, locs := [(.mem .core 0, 4)] }
def peerAcc : Acc := { peer := true, locs := [(.mem .bank 0, 4)] }
def loads (a : Acc) : Work := .mem (.load 4 false) (.uni 4) [a]
theorem test_accessArrivalsHold : ([sliceAcc, peerAcc].all fun a => let w := loads a
      pends (inFlight w) (doing w) (does w) && (doing w).inOrder (does w) (.load 4 false)) = true ∧
    (∃ a ∈ [sliceAcc], a.slice = true ∧ a.performed = false ∧ a.held = false) ∧
    (∃ a ∈ [peerAcc], a.peer = true ∧ a.performed = false ∧ a.held = false) ∧
    (inFlight (loads peerAcc)).linkUp = true ∧
    ((inFlight (loads peerAcc)).setDie 1 { (inFlight (loads peerAcc)).die 1 with retrain := true }).linkUp = false := by decide

/-- A walk whose tables hold one leaf of a page of each level; a line; a request that starts, moves and ends. -/
def walked : State :=
  let s : State := { State.reset with parts := [{ placedPart with root := 4096 }] }
  let t := s.setDie 0 { s.die 0 with walks := [{}] }
  ((t.writeMem .scene 4096 (leBytes 8 (0x2000 + 1))).writeMem .scene 8192 (leBytes 8 (0x3000 + 1))).writeMem .scene 12288 (leBytes 8 (0x4000 + 1))
def copying (c : Copy) : State := { at0 (grp []) with copies := [c] }
def aCopy : Copy := { bytes := leBytes 32 (0xFF4000000000 + 2 ^ 64 * 0xFF4000000100) }
theorem test_arrivalsHold : (walked.die 0).walks = [{}] ∧
    ((State.reset.setDie 0 { State.reset.die 0 with fills := [{ cores := [3], locs := [(0, 64)] }] }).die 0).fills =
      [{ cores := [3], locs := [(0, 64)] }] ∧
    (copying aCopy).copies.find? (fun c => c.die == 0 && c.core == 0 && c.st == .queued && (copying aCopy).copyMayStart c) = some aCopy ∧
    ([({ ending := some (0xFF, true) } : Copy), { st := .started, cancelled := true }, { st := .started }].all fun c =>
      (copying c).copy? 0 == some c) = true ∧ ({} : Copy).total ≤ ({} : Copy).done := by decide

/-! ### Events: the dispatcher -/

/-- A partition whose tables map its first GiB to the scene memory from 2^30 on, with an image of one variant at address 0 and a
trap vector record at 512. -/
def mapped : Part := { placedPart with root := 0x1000, sqBase := 16384, sqLimit := 32768, vector := 512 }
def put (s : State) (ws : List (Nat × Nat × Nat)) : State := ws.foldl (fun t e => t.writeMem .scene e.1 (leBytes e.2.1 e.2.2)) s
def imaged : State :=
  put { (State.reset.setReg 0 twProtLimit 16) with parts := [mapped] }
    [(0x1000, 8, 0x2001), (0x2000, 8, 2 ^ 30 + 2 + 7 * 2 ^ 58), (2 ^ 30, 16, 0x43555A4B + 2 ^ 32 + 2 ^ 48 + 32 * 2 ^ 64 + 64 * 2 ^ 96),
     (2 ^ 30 + 64, 20, 16 + 128 * 2 ^ 16 + 2 ^ 64 + 128 * 2 ^ 96 + 4 * 2 ^ 128)]
/-- A dispatch packet of one block, of none, and short packets. -/
def onePacket : List Byte := leBytes 64 (1 + 2 ^ 32 + 2 ^ 48 + 2 ^ 64)
theorem test_acceptHolds :
    (match imaged.checkDispatch {} onePacket with | .ok _ => true | _ => false) = true ∧
    (match imaged.checkDispatch {} (leBytes 64 1) with | .reject r => r == 2 | _ => false) = true := by decide

/-- The unit of the accepted grid has a place. -/
def pooled : State :=
  match imaged.checkDispatch {} onePacket with
  | .ok k => imaged.enter k
  | _ => imaged
theorem test_placementHolds : (pooled.die 0).placeAt ≤ pooled.clk ∧ (pooled.die 0).power.st = 0 ∧
    (match pooled.unitsOf 0 with
     | (k, w) :: _ => (match pooled.part? k.die k.part with
       | some p => (pooled.heldBlock w).isNone && (match (pooled.unreserve (k.uid, w.first)).tryUnit p k w (pooled.coreFree k) with
           | .placed _ => true
           | _ => false)
       | none => false)
     | [] => false) = true := by decide

/-- A breakpoint of each route at offset 0. -/
def broken (w : Word) : State :=
  { ((at0 (grp [])).setReg 0 (dbBpCtl 0 3) w) with cur := some { group := 0 } }
theorem test_breakpointHolds : ([(0x80000000 : Word), 0xC0000000].all fun w =>
    (broken w).group? 0 == some (grp []) && (broken w).breakpoint? (grp []) 3 == some 3 &&
    bitAt ((broken w).regN 0 (dbBpCtl 0 3)) 30 == (w == 0xC0000000)) = true := by decide

/-- A block in a grid with a save pool, which may be pre-empted; one whose save or restore lasts too long; requests at their
limit and before it. -/
def saving : Grid := { placedGrid with vector := { pool := 65536, poolSize := 1048576 } }
def with1 (b : Block) (k : Grid) : State := { at0 (grp []) with grids := [k], blocks := [b] }
theorem test_preemptionHolds : ([0, 1, 2].all fun n => ((with1 placedBlock saving).preempt 0 n).isSome) = true ∧
    ([BlockState.saving, .restoring].all fun st => let s : State := { with1 { placedBlock with st := st } saving with clk := saveLimit }
      s.block? 0 == some { placedBlock with st := st } && s.grid? 0 == some saving && decide (placedBlock.since + saveLimit ≤ s.clk)) = true := by
  decide
theorem test_requestHolds : ([(requestLimit - 1, false, 2), (requestLimit, true, 2), (requestLimit, false, 1), (requestLimit, false, 2)].all fun e =>
    let r : Request := { upward := e.2.1 }
    let s : State := { with1 { placedBlock with req := some r } { saving with cls := e.2.2 } with clk := e.1 }
    s.block? 0 == some { placedBlock with req := some r } && s.grid? 0 == some { saving with cls := e.2.2 }) = true ∧
    requestLimit - 1 < ({} : Request).posted + requestLimit := by decide

/-- A grid with a deadline that has passed waits on a request to one block. -/
def late : Grid := { placedGrid with uid := 9, cls := 0, next := 0 }
def asked : Block := { placedBlock with req := some { forGrid := 9 } }
def slack : State := { with1 asked saving with grids := [saving, late] }
theorem test_slackHolds : slack.grid? 9 = some late ∧ late.die = 0 ∧ slack.slackLow late = true ∧ slack.gridWaits late = true ∧
    (slack.blocks.filter fun b => b.req.any fun r => !r.upward && r.forGrid == 9) = [asked] := by decide

/-- A block in its second variant with room for the first; a block whose parking lets a child start; a move to another column. -/
def twoVariants : Grid := { placedGrid with variants := [placedVariant, { placedVariant with vregs := 16, acc := 0 }] }
def second : Block := { placedBlock with variant := 1, switches := 1 }
def joining : Group := { grp [] with inJoin := true }
def parking : State := { with1 placedBlock saving with
  groups := [joining], clk := parkWait, parts := [placedPart]
  grids := [saving, { placedGrid with uid := 9, parent := some 0, depth := 1, next := 0, inPool := true }] }
theorem test_upwardAndParkHold :
    ((List.range second.variant).findSome? fun n =>
      ((with1 second twoVariants).convertAllocs second ((twoVariants.variants[n]?).getD {})).head?.map fun a => (n, a)).isSome = true ∧
    second.st = .resident ∧ second.req = none ∧ second.variant ≠ 0 ∧ (with1 second twoVariants).urgentWaits 0 0 = false ∧
    (with1 second twoVariants).blockHoldsToken second = false ∧
    (parking.parkFor placedBlock).isSome = true ∧ (parking.preempt 0 2).isSome = true := by decide
theorem test_moveHolds : (((with1 placedBlock placedGrid).movePlace placedBlock 1).isSome ||
    ((with1 placedBlock placedGrid).movePlace placedBlock 8).isSome) = true ∧
    (∀ g ∈ (with1 placedBlock placedGrid).groupsOf 0, g.preempt = none) := by decide

/-- A finished block of a plain grid; a grid all of whose blocks have retired. -/
theorem test_retirementHolds : (with1 { placedBlock with st := .finished } placedGrid).block? 0 = some { placedBlock with st := .finished } ∧
    placedGrid.strict = false ∧ placedGrid.record = 0 ∧ placedGrid.nbhd = 0 ∧
    ({ placedGrid with retired := 1 } : Grid).retired = ({ placedGrid with retired := 1 } : Grid).blocks ∧ placedGrid.st = .active ∧
    (with1 placedBlock { placedGrid with retired := 1 }).childActive { placedGrid with retired := 1 } = false ∧
    placedGrid.release = false ∧ (with1 placedBlock placedGrid).forwards = [] := by decide

/-! ### Events: packets, registers, the mailbox, the outside -/

/-- A packet at its turn, with its first byte and bit 15 (a reserved one) or a completion address as given. -/
def packetOf (b0 rsv comp : Nat) : Packet := { bytes := leBytes 56 (b0 + 2 ^ 15 * rsv) ++ leBytes 8 comp }
def turn (s : State) (p : Packet) : State := s.mapPackets 0 fun _ => [p]
theorem packetReady_at {s : State} {p : Packet} (h : ((turn s p).packet? 0 0 == some p && !packetAcquire p.bytes && p.wait.isNone) = true) :
    PacketReady (turn s p) 0 0 p := by
  simp only [Bool.and_eq_true, beq_iff_eq, Bool.not_eq_true'] at h
  refine ⟨h.1.1, ?_, fun hq => ?_⟩
  · simpa using h.2
  · rw [h.1.2] at hq; cases hq
theorem test_packetsHold : ([(0, 0, 0), (1, 0, 0), (2, 0, 0), (2, 1, 0), (2, 0, 4), (3, 0, 0), (4, 0, 0), (255, 0, 0)].all fun e =>
      let p := packetOf e.1 e.2.1 e.2.2
      (turn imaged p).packet? 0 0 == some p && !packetAcquire p.bytes && p.wait.isNone && leNat (p.bytes.take 1) == e.1 &&
      shortReserved p.bytes == (e.2.1 == 1) && packetCompletion p.bytes % 8 == e.2.2) = true ∧
    (State.reset.die 0).power.st = 0 ∧ (turn imaged (packetOf 1 0 0)).dispatched 0 0 < 16 ∧
    (let s := turn imaged { bytes := onePacket }
     (match s.checkDispatch { die := 0, part := s.queuePart 0 0, queue := 0 } onePacket with | .ok _ => true | _ => false) = true) ∧
    State.reset.sem 0 0 = 0 ∧ (State.reset.setReg 0 (pkSem 0 0) 1).sem 0 0 ≠ 0 := by decide
theorem test_coalesceHolds : ([(99, 1), (100, 1), (100, 0)].all fun e =>
    let s : State := { State.reset.setCoalesce 0 31 { pending := e.2, timer := some 100 } with clk := e.1 }
    (s.coalesceOf 0 31).timer == some 100 && (s.coalesceOf 0 31).pending == e.2) = true := by decide

/-- Queues in each state, with room and without; a configuration that is enabled. -/
def quota : State := { State.reset with parts := [{ placedPart with sqLimit := 65535 }] }
theorem test_queuesHold : State.reset.queueState 0 0 = 0 ∧ (State.reset.setQueueState 0 31 1 0).queueState 0 31 = 1 ∧
    (State.reset.setQueueState 0 0 2 0).queueState 0 0 = 2 ∧ State.reset.inProgress 0 0 = false ∧ State.reset.queueOpen 0 0 = false ∧
    (quota.part? 0 ((0x40100 : Word).toNat % 16)).isSome = true ∧ bits (0x40100 : Word).toNat 20 16 = 4 ∧
    quota.ringInQuota ((quota.part? 0 0).getD {}) 0 0 4 = true ∧ (0x40100 : Word).getLsbD 8 = true ∧
    (let s := State.reset.setQueueState 0 0 1 0
     2 ^ bits (s.regN 0 (pkQ 0 8)) 20 16 < ((2 : Word).toNat % 2 ^ 17 + 2 ^ 17 - s.regN 0 (pkQ 0 0x10)) % 2 ^ 17 ∧
     ¬ 2 ^ bits (s.regN 0 (pkQ 0 8)) 20 16 < ((1 : Word).toNat % 2 ^ 17 + 2 ^ 17 - s.regN 0 (pkQ 0 0x10)) % 2 ^ 17) := by decide

/-- A record without its answer; a partition with a grid and one without; descriptors that are accepted and refused. -/
def protectedState : State := put (State.reset.setReg 0 twProtLimit 16) [(0, 128, 0x1000 + 2 ^ 128 * 0x2000 + 2 ^ 176 * 4)]
theorem test_pagingRegistersHold :
    ({ State.reset with unanswered := [{ seq := some 7 }] } : State).recordBySeq 0 0 7 = some { seq := some 7 } ∧
    (with1 placedBlock placedGrid).partBusy 0 = true ∧ protectedState.partBusy 0 = false ∧ (1 : Word).getLsbD 0 = true ∧
    (protectedState.wake 0).descOk 0 0 ((protectedState.wake 0).regN 0 (twPdHi 0) % 65536 * 2 ^ 32) = true ∧
    ((protectedState.writeMem .scene 22 [3]).wake 0).descOk 0 0 0 = false ∧
    (State.reset.wake 0).descOk 0 0 0 = false := by decide

/-- The allowlist locked and open; reports asked for a partition that is there, and for one that is not. -/
def asking (req : Nat) : State := { imaged with attest := some (req, 1) }
theorem test_securityHolds : (State.reset.setReg 0 egLock 1).locked = true ∧ State.reset.locked = false ∧
    (asking 0).attest = some (0, 1) ∧ (∀ p ∈ (asking (2 ^ 28)).parts, p.num ≠ 2 ^ 28 / 2 ^ 28) ∧
    ((asking 0).parts.find? fun p => p.num == 0 / 2 ^ 28) = some mapped ∧
    (asking 0).inProt mapped.die (((asking 0).protRange mapped.die).1 + 64 * (0 % 2 ^ 28)) 32 = true ∧
    (asking 0).inProt mapped.die (((asking 0).protRange mapped.die).1 + 64 * 1) 384 = true := by decide
theorem test_registerOffsetsHold : (4 : Nat) % 4 = 0 ∧ (twPdLo 0 - 8) % 8 = 0 ∧ twPdLo 0 - 8 < twPdLo 0 ∧ twPdLo 16 ≤ twPdLo 16 ∧
    twPdLo 15 % 8 = 0 ∧ twPdLo 15 < twPdLo 16 := by decide

/-- A mailbox with the words 0 to 4 of a command. -/
def boxed (s : State) (ws : List Nat) : State :=
  let t := ((List.range ws.length).zip ws).foldl (fun (t : State) e => t.setRegN 0 (mbox e.1) e.2) s
  t.setDie 0 { t.die 0 with mboxBusy := true }
def commanded (s : State) (op : Nat) : Bool := (s.die 0).mboxBusy && s.mboxN 0 0 % 256 == op && bits (s.mboxN 0 0) 15 12 == 0
def stoppedGroup : Group := { grp [] with
  stopS := { stopped := true }, stop0 := { stopped := true }, stop1 := { stopped := true }
  k := { p0 := { st := .running, mask := 1 }, p1 := { st := .running, mask := 2 } } }
theorem test_targetsHold : ([1, 2, 3, 4, 5, 6, 7, 8, 9, 10, 11, 12].all fun op => commanded (boxed (at0 (grp [])) [op]) op) = true ∧
    (boxed (at0 (grp [])) [1, 0x2000]).targetReserved 0 = true ∧ (boxed (at0 (grp [])) [1, 0x80000]).targetReserved 0 = true ∧
    (boxed (at0 (grp [])) [1, 1]).targetReserved 0 = false ∧ (boxed (at0 (grp [])) [1, 1]).target? 0 0 = none ∧
    bits ((boxed (at0 (grp [])) [1, 1]).mboxN 0 1) 18 16 ∈ [0, 1, 3, 4] ∧
    ([0x30000, 0x40000].all fun w => let s := boxed (at0 stoppedGroup) [3, w]
      !s.targetReserved 0 && [0, 1, 3, 4].contains (bits (s.mboxN 0 1) 18 16) && s.target? 0 0 == some stoppedGroup &&
      (bits (s.mboxN 0 1) 18 16 == 4 || stoppedGroup.hasStream (bits (s.mboxN 0 1) 18 16)) &&
      (chosen s 0 stoppedGroup).all fun n => (stoppedGroup.stop n).stopped && !((grp []).stop n).stopped) = true ∧
    stoppedGroup.allStopped = true ∧ (grp []).allStopped = false ∧
    ([0, 0x10000].all fun w => let s := boxed (at0 (grp [])) [3, w]
      !s.targetReserved 0 && s.target? 0 0 == some (grp []) && [0, 1].contains (bits (s.mboxN 0 1) 18 16) &&
      !(grp []).hasStream (bits (s.mboxN 0 1) 18 16)) = true := by decide
theorem test_debugWordsHold : ((at0 stoppedGroup).debugWord stoppedGroup 0x81 511).isSome = true ∧
    (at0 stoppedGroup).debugWord stoppedGroup 0x81 512 = none ∧ (at0 stoppedGroup).debugWord stoppedGroup 7 0 = none ∧
    (stoppedGroup.debugWrite 0x80 8191 5).isSome = true ∧ stoppedGroup.debugWrite 0x80 8192 5 = none ∧
    (stoppedGroup.debugWrite 0 38 5).isSome = true ∧ stoppedGroup.debugWrite 0 39 5 = none := by decide
theorem test_debugAccessHolds : (∀ e ∈ ((boxed (at0 (grp [])) [6]).die 0).events, e.part ≠ 0) ∧
    (let s := (at0 (grp [])).setDie 0 { (at0 (grp [])).die 0 with events := [{}] }
     (s.die 0).events.find? (fun e => e.part == 0) = some {}) ∧
    imaged.debugAt 0 0 0 false = .inl (.mem .scene (2 ^ 30)) ∧ imaged.debugAt 0 0 4 true = .inl (.mem .scene (2 ^ 30 + 4)) ∧
    imaged.poisoned .scene (2 ^ 30) 4 = false ∧
    (match imaged.debugAt 0 0 (2 ^ 48) false, imaged.debugAt 0 0 (2 ^ 31) true with | .inr _, .inr _ => true | _, _ => false) = true ∧
    dbReachable 0x40 = true ∧ dbReachable 0x3C = false ∧ dbReachable 0x100000 = false ∧
    (State.reset.die 0).mboxPort ≠ 1 ∧
    ((at0 (grp [])).grids.filter fun k => k.die == 0 && k.part == 0 && k.queue == 0 % 32 && k.tag == 0 / 65536 &&
      (at0 (grp [])).blocks.any fun b => b.grid == k.uid && !((at0 (grp [])).groupsOf b.uid).isEmpty) = [placedGrid] ∧
    ((at0 (grp [])).groups.find? fun g => ((at0 (grp [])).blockOf g).grid == placedGrid.uid && ((at0 (grp [])).blockOf g).index == 0 &&
      g.index == 0 && !g.exited) = some (grp []) ∧ (∀ k ∈ State.reset.grids, k.part ≠ 0) := by decide
theorem test_scanHolds : State.reset.regN 0 (seBase + 0x10) % 2 = 0 ∧
    (State.reset.setReg 0 (seBase + 0x10) 1).regN 0 (seBase + 0x10) % 2 = 1 ∧ (2 ^ 38 : BitVec 40).getLsbD 39 = false := by decide

/-- A group that did not issue; a sample that is due; a timer that runs and one that has run out. -/
def idle : Group := { grp [] with whyS := some 4, issued := false }
def timed : Block := { placedBlock with bars := setNth placedBlock.bars 15 { first := some 0, count := clkPerUs } }
theorem test_watchesHold : (at0 idle).group? 0 = some idle ∧ idle.why.isSome = true ∧ idle.issued = false ∧ idle.exited = false ∧
    (let s := (State.reset.setDie 0 { State.reset.die 0 with sampler := { next := some 0 } }).setReg 0 pfBase 0x80000000
     ((s.die 0).sampler.next = some 0 ∧ 0 ≤ s.clk ∧ bitAt (s.regN 0 pfBase) 31 = true)) ∧
    (with1 timed placedGrid).block? 0 = some timed ∧ (timed.bar 15).first.isSome = true ∧
    (with1 timed placedGrid).timerPaused timed 15 = false ∧ bitAt ((with1 timed placedGrid).regN 0 wdBase) 31 = true ∧
    clkPerUs * max 1 (((with1 timed placedGrid).setReg 0 wdBase 0x80000001).regN 0 wdBase % 2 ^ 24) < (timed.bar 15).count + 1 ∧
    bitAt (((with1 timed placedGrid).setReg 0 wdBase 1).regN 0 wdBase) 31 = false := by decide

/-- Bands: to be read, to be sent at its deadline, begun, late. -/
def band1 : Band := { width := 8 }
theorem test_bandsHold :
    ({ imaged with bands := [band1] } : State).band? 0 = some band1 ∧
    (match ({ imaged with bands := [band1] } : State).readBytes 0 0 band1.buffer band1.bytes with | .ok _ => true | _ => false) = true ∧
    ([({ band1 with data := some [], start := some 0 } : Band), { band1 with data := some [] }].all fun b =>
      let s : State := { imaged with bands := [b] }
      s.band? 0 == some b && !b.dead && decide (s.stime ≤ b.deadline.toNat) && !s.mustWait b true) = true ∧
    band1.deadline.toNat < ({ imaged with stime := 1 } : State).stime := by decide

theorem test_outsideHolds :
    (let p : Power := { st := 2, wake := some 5 }
     let s : State := { State.reset.setPower 0 p with clk := 5 }
     (s.die 0).power.wake = some 5 ∧ 5 ≤ s.clk) ∧
    (let s := State.reset.setReg 0 pmBase 0xFFFF
     let n := s.powerTarget 0
     let u := s.setPower 0 { toward := some n }
     (0 < n ∧ u.powerTarget 0 = n ∧ (u.die 0).power = { toward := some n })) ∧
    (State.reset.setPower 0 { st := 2 }).powerTarget 0 < 2 ∧ ((State.reset.setPower 0 { st := 2 }).die 0).power.wake = none ∧
    (State.reset.die 0).replays < 8 ∧ 8 ≤ ((State.reset.setDie 1 { State.reset.die 1 with replays := 8 }).die 1).replays ∧
    (((State.reset.setReg 0 (twBase + 0x18) 1).setReg 0 (twBase + 0x14) 1).pcieAllowed 0 65536) = true ∧
    State.reset.pcieAllowed 0 1 = false := by decide


/-! ### Further cases -/

/-- Instructions of the two streams, and opcodes between their ranges. -/
theorem test_streamsHold : scalarStream (.add 4 6 8 true) = true ∧ laneStream (.vadd (lop .i32 .reg 4 6 8 0 0)) ∧
    laneStream (.clauseStart ⟨1, true, 3, true, 9, 7, true⟩) ∧ Outside scalarAssigned 0 ∧ Outside scalarAssigned 127 ∧ Outside laneAssigned 0 ∧
    Outside laneAssigned 0xFE :=
  ⟨rfl, .inl (by decide), .inr ⟨_, rfl⟩, by unfold Outside; decide, by unfold Outside; decide, by unfold Outside; decide,
    by unfold Outside; decide⟩

/-- Nothing stops the streams of the placed group. -/
theorem test_turnsCalmHold : ([false, true].all fun l => let g := placedGroup l false
    !g.stopS.halt && !(g.stop 0).halt && !(State.reset.withFetchWord 96 0).frozen g) = true := by decide

/-- An operation of lanes 3 and 17, of 16 bytes each. -/
def lanePair (n : Nat) (data : List Byte) : List (Acc × Space × Nat) :=
  [({ lane := 3, locs := [(.mem .core 64, n)], data := data }, .core, 64), ({ lane := 17, locs := [(.mem .core 128, n)], data := data }, .core, 128)]
def laneOp (k : MemKind) (d : Dst) (n : Nat) (data : List Byte) : Op :=
  { work := .mem k d ((lanePair n data).map (·.1)), paths := [0], flag := some 1, lane := true }
theorem test_laneReturnsHold : ∀ e ∈ [(MemKind.load 16 false, Dst.vec 4, 16, ([] : List Byte)), (.store, .none, 2, [1, 2]),
    (.atomic { op := 10, size := 4 }, .none, 4, leBytes 4 7), (.atomic { op := 9, size := 8 }, .vec 8, 8, leBytes 16 7)],
    Accessing (at0 (holding (laneOp e.1 e.2.1 e.2.2.1 e.2.2.2))) 0 0 (holding (laneOp e.1 e.2.1 e.2.2.1 e.2.2.2))
      (laneOp e.1 e.2.1 e.2.2.1 e.2.2.2) e.1 e.2.1 (lanePair e.2.2.1 e.2.2.2) e.2.2.1 ∧
    LanesOnce (at0 (holding (laneOp e.1 e.2.1 e.2.2.1 e.2.2.2))) (lanePair e.2.2.1 e.2.2.2) e.2.2.1 := by
  intro e he
  simp only [List.mem_cons, List.not_mem_nil, or_false] at he
  rcases he with rfl | rfl | rfl | rfl <;>
    exact ⟨⟨rfl, rfl, rfl, by decide, by decide, rfl, by decide, noWatch_at _, rfl⟩, by decide, by decide⟩

/-- A deferred fault that the fences deliver; the earliest of two. -/
theorem test_faultsHold : ¬ NoFault faulty ∧ Earliest faulty { op := 3, flag := some 2, paths := [0] } ∧
    (faulty.u 4).toNat < 255 ∧ faulty.ctx.counter 0 ≤ (faulty.u 4).toNat ∧ (∃ d ∈ faulty.deferred, 0 ∈ d.paths) :=
  ⟨by simp [NoFault, faulty], ⟨List.mem_cons_self, by decide⟩, by decide, by decide, by decide⟩

/-- A barrier at which the group has arrived; one that it waits for and has not arrived at; one that the block has not; the holder. -/
def arrivedAt (gen : Word) : Group := { grp [] with barLast := setNth (List.replicate 16 none) 15 (some gen) }
theorem test_barrierWaitsHold : (arrivedAt 0).barLast[15]? = some (some 0) ∧ (0 : Word) = (((at0 (arrivedAt 0)).blockOf (arrivedAt 0)).bar 15).gen ∧
    (7 : Word) ≠ (((at0 (arrivedAt 7)).blockOf (arrivedAt 7)).bar 15).gen ∧ (arrivedAt 0).barAt = none ∧
    (grp []).barLast[15]? = some none ∧ ({ grp [] with barWaited := 15, barW := some 7 } : Group).barW = some 7 ∧
    ({ grp [] with barAt := some 15 } : Group).barAt = some 15 ∧
    (({ at0 (grp []) with blocks := [{ placedBlock with nBar := 15 }] } : State).blockOf (grp [])).nBar ≤ 15 ∧
    ((tokenAt (grp [])).gridOf (grp [])).strict = true ∧ (tokenAt (grp [])).holdsToken (grp []) = true := by decide

/-- Requests of a group and of another with one tag; children that have completed; an object that the other stack holds. -/
def reqTag (n own t : Nat) : Copy := { id := n, owner := own, bytes := leBytes 32 (t * 2 ^ 48) }
def tagged : State := { at0 (grp [(4, 7)]) with copies := [reqTag 1 0 7, reqTag 2 1 7, reqTag 3 0 8] }
theorem test_cancelHolds : (tagged.copies.map (·.id)).Nodup ∧ ((grp [(4, 7)]).u 4).toNat < 2 ^ 16 ∧
    (∃ x ∈ tagged.copies, x.owner = (grp [(4, 7)]).uid ∧ x.tag = 7 ∧ x.st = .queued ∧
      ∀ y ∈ tagged.copies, y.owner = (grp [(4, 7)]).uid ∧ y.tag = 7 → y = x) ∧ (grp [(4, 7)]).exited = false ∧
    tagged.group? 0 = some (grp [(4, 7)]) ∧
    (∀ k ∈ [{ placedGrid with parent := some 0, st := .complete }, placedGrid], k.parent = some (grp []).uid → k.joined = false →
      k.st = .complete) := by
  refine ⟨by decide, by decide, ⟨reqTag 1 0 7, by decide, by decide, by decide, by decide, by decide⟩, by decide, by decide, by decide⟩
def peerPage : Tlb := { pte := 0x0100000000000002 }
def asked1 (w : Bool) : Group := { mem1 0 64 with waitPeer := some 64, waitLost := w }
theorem test_peerWaitHolds :
    (match ({ at0 (mem1 0xFF40 0) with poison := [(.core, 0)] } : State).check (mem1 0xFF40 0) .read 16 ((mem1 0xFF40 0).u64 6).toNat 16 with
     | .ok acc _ => ((({ at0 (mem1 0xFF40 0) with poison := [(.core, 0)] } : State).performAt (mem1 0xFF40 0) (.load 16 false) acc).fault).isSome
     | _ => false) = true ∧ (asked1 true).waitLost = true ∧ (at0 (asked1 true)).expired 0 (some 0) = false ∧
    ({ at0 (asked1 true) with clk := 2 ^ 40 } : State).expired 0 (some 0) = true := by decide

/-! ### Handlers and events -/

/-- A group whose next trap is one that its handler takes; one before PREEMPT with nothing in flight. -/
def trapping : Group := { grp [] with trapS := some software }
def preempted : Group := { grp [] with preempt := some (0, 65536) }
theorem test_trapEntryHolds : trapping.atBoundary = true ∧ trapping.ready = [software] ∧ ({ vectored with groups := [trapping] } : State).group? 0 = some trapping ∧
    (∀ n, (trapping.stop n).step = false) ∧ preempted.ready = [] ∧ preempted.atBoundary = true ∧ (at0 preempted).group? 0 = some preempted ∧
    preempted.ops = [] ∧ preempted.deferred = [] ∧ (at0 preempted).partnerBusy preempted = false ∧ (at0 preempted).forwards = [] ∧
    (at0 preempted).copies = [] ∧ ((at0 (hand [])).gridOf (hand [])).vector.handles software.code = false ∧
    (vectored.gridOf (hand [])).vector.handles software.code = true := by
  refine ⟨by decide, by decide, by decide, ?_, by decide, by decide, by decide, by decide, by decide, by decide, by decide, by decide, by decide,
    by decide⟩
  intro n
  unfold Group.stop
  split <;> (try split) <;> rfl

/-- A breakpoint at the first instruction of a lane path, of route 0. -/
def pathBroken : State := { ((at0 (placedGroup true true)).setReg 0 (dbBpCtl 0 5) 0x80000000) with cur := some { group := 0, lane := true } }
theorem test_pathBreakpointHolds : pathBroken.group? 0 = some (placedGroup true true) ∧ pathBroken.breakpoint? (placedGroup true true) 0 = some 5 ∧
    bitAt (pathBroken.regN 0 (dbBpCtl 0 5)) 30 = false := by decide

/-- A `tlbinv` of a page and of every page; a register of the context that reads as uncorrectable. -/
theorem test_meetsHold : Meets 4096 1 4096 4096 ∧ ¬ Meets 4096 1 0 4096 ∧ Meets 0 0 4096 4096 ∧
    (({ at0 (grp []) with poison := [(.uniform, groupKey 0 16)] } : State).badUni (grp []) [4, 6] = true) := by
  unfold Meets
  decide

/-- Lane instructions that a field of their own bars. -/
theorem test_reservedOwnHolds : (laneAt calm).reservedOwn calm (.vsrd (lop .b32 .imm 4 0 0 0 0x1F)) (lop .b32 .imm 4 0 0 0 0x1F) = true ∧
    (laneAt calm).reservedOwn calm (.vadd (r .i32)) (r .i32) = false ∧ (lop .b32 .imm 4 0 0 0 1024).form ≠ .uni ∧
    1024 ≤ (lop .b32 .imm 4 0 0 0 1024).imm.toNat ∧
    (let g := lanes [(6, 1024)] (List.replicate 12 0)
     6 < g.ulimit ∧ (laneAt g).badUni g [6] = false ∧ 1024 ≤ (g.u 6).toNat) := by decide

/-- Paths that diverge: alone in their block, beside another, on the stack, in a run; that stand at their reconvergence index. -/
def onePath (p : Path) (s0 : List Entry := []) (other : Path := {}) : Ctx := { p0 := { p with st := .running }, p1 := other, s0 := s0, busy := true, start := 0xFF }
def entry1 : Entry := { waitPc := 3, waitMask := 0xF0, rcv := 9, outer := none, merge := 0xFF }
theorem test_divergenceHolds :
    (let c := onePath { mask := 0xFF }
     (0xFF : Word) &&& ~~~(0x0F : Word) ≠ 0 ∧ (c.path false).serial = none ∧ (c.path true).st = .free ∧ c.stack false = []) ∧
    (let c := onePath { mask := 0x0F, rc := some 9 } [entry1]
     c.s0.length + c.s1.length < c.granted ∧ (c.path false).rc ≠ some 4 ∧ ¬ ((c.path true).st = .free ∧ (c.path false).rc = none)) ∧
    (let c := onePath { mask := 0x0F, rc := some 9 } (List.replicate 64 entry1)
     c.granted ≤ c.s0.length + c.s1.length ∧ (0x0F : Word).getLsbD 0 = true) ∧
    (let c := onePath { mask := 0x0F, pc := 9, rc := some 9 } [entry1]
     entry1.phase = false ∧ entry1.waitMask &&& ~~~c.done ≠ 0 ∧ entry1.rcv ≠ entry1.waitPc ∧ c.stack false = [entry1]) ∧
    (let e := { entry1 with phase := true }
     e.merge &&& ~~~(0 : Word) ≠ 0 ∧ e.outer ≠ some e.rcv) ∧
    (let c : Ctx := { p0 := { st := .arrived, mask := 1, rc := some 9 }, p1 := { st := .arrived, mask := 2, rc := some 9 } }
     c.p0.rc = c.p1.rc ∧ (c.p0.mask ||| c.p1.mask) &&& ~~~c.done ≠ 0) ∧
    (let p : Path := { mask := 0xF, serial := some { branch := 2, rcv := 9, lane := 0 }, pc := 9 }
     p.mask.getLsbD 0 = true ∧ p.mask.getLsbD 1 = true ∧ ∀ l, 3 < l → p.mask.getLsbD l = true → False) := by
  refine ⟨by decide, by decide, by decide, by decide, by decide, by decide, by decide, by decide, ?_⟩
  intro l h hl
  have := BitVec.lt_of_getLsbD hl
  have : ∀ n : Fin 32, 3 < n.val → ((0xF : Word).getLsbD n.val) = false := by decide
  exact absurd ((this ⟨l, ‹l < 32›⟩ h).symm.trans hl) (by decide)

/-- The lanes of these are kept. -/
theorem test_lanesKeptHold : LanesKept (onePath { mask := 0xFF }) ∧ LanesKept (onePath { mask := 0x0F, rc := some 9 } [entry1]) ∧
    LanesKept {} ∧ (0x0F : Word) &&& ~~~(onePath { mask := 0x0F, rc := some 9 } [entry1]).p0.mask = 0 := by
  refine ⟨⟨⟨?_, ?_, ?_, ?_⟩, ⟨?_, ?_, ?_, ?_⟩⟩, ⟨⟨?_, ?_, ?_, ?_⟩, ⟨?_, ?_, ?_, ?_⟩⟩, ⟨⟨?_, ?_, ?_, ?_⟩, ⟨?_, ?_, ?_, ?_⟩⟩, ?_⟩ <;>
    simp [onePath, entry1, Nested]

/-! ### Arrivals and units -/

/-- A memory operation that nothing holds; an access that awaits its answer, before its time and after; a request that moves its
next chunk. -/
def waitingPeer : Op := { does (loads peerAcc) with since := some 0 }
def movingCopy : Copy := { aCopy with st := .started }
theorem test_answersHold : (inFlight (loads sliceAcc)).releaseHeld (doing (loads sliceAcc)) (does (loads sliceAcc)) = does (loads sliceAcc) ∧
    (does (loads sliceAcc)).wait = none ∧ sliceAcc.onMesh = true ∧ (doing (loads sliceAcc)).op? (failedOper 0) = none ∧ peerAcc.awaits = true ∧ peerAcc.lost = false ∧
    (inFlight (loads peerAcc)).expired 0 waitingPeer.since = false ∧
    ({ inFlight (loads peerAcc) with clk := 2 ^ 40 } : State).expired 0 waitingPeer.since = true ∧
    (let c : Copy := { aCopy with st := .started, cut := false }
     c.cut = false ∧ (copying c).objectBad c = false) := by decide
theorem test_walkHolds : (match walk imaged mapped 0 with | .leaf _ _ _ => true | _ => false) = true ∧
    (imaged.part? 0 0).isSome = true := by decide

/-- A pre-emption that finds no room in the save pool; a block that stands still; moves in the last 10 ms; a partition whose blocks
are saved. -/
def frozen1 : State := with1 { placedBlock with st := .frozen } placedGrid
theorem test_migrationHolds : (with1 placedBlock placedGrid).preempt 0 0 = none ∧ (∃ g ∈ (with1 placedBlock placedGrid).groupsOf 0, g.exited = false) ∧
    frozen1.settled { placedBlock with st := .frozen } = true ∧ (with1 placedBlock placedGrid).moveDue 0 [0, 1] = true ∧
    ((with1 placedBlock placedGrid).noteMove 0 [0, 1]).moveDue 0 [1] = false ∧ (with1 placedBlock placedGrid).vacated 0 = false ∧
    (with1 { placedBlock with st := .saved } placedGrid).vacated 0 = true ∧
    ({ frozen1 with copies := [{ st := .started, bytes := leBytes 32 (winBase + 0x8000000000) }] } : State).settled { placedBlock with st := .frozen } = false := by
  refine ⟨by decide, by decide, by decide, by decide, by decide, by decide, by decide, by decide⟩

/-- Packets: one that waits for a page, one behind the grids of its queue, the 17th; a queue with a packet to take. -/
def behind1 : State := { turn imaged { packetOf 1 0 0 with bytes := leBytes 64 0x101 } with grids := [placedGrid] }
def published : State := (State.reset.setQueueState 0 5 1 0).setReg 0 (pkQ 5 0xC) 1
theorem test_packetWaitsHold : packetAcquire (leBytes 64 0x101) = true ∧ behind1.queueQuiet 0 0 = false ∧ (behind1.packet? 0 0).isSome = true ∧
    16 ≤ ({ turn imaged (packetOf 1 0 0) with grids := List.replicate 16 placedGrid } : State).dispatched 0 0 ∧
    ((published.newPackets 0).map (·.queue)) = [5] ∧ ((State.reset.setPower 0 { st := 1 }).die 0).power.st ≠ 0 ∧
    (match imaged.checkDispatch {} (leBytes 64 (1 + 2 ^ 32 + 2 ^ 48 + 2 ^ 64 + 2 ^ 30 * 2 ^ 128)) with | .page _ _ => true | _ => false) = true := by
  decide

/-- Queues that are terminated with grids that run, and with none; one whose packet is in progress when it is reset. -/
theorem test_queueStopsHold : ({ State.reset with grids := [placedGrid] } : State).queueOpen 0 0 = true ∧
    (State.reset.setQueueState 0 0 3 0).queueState 0 0 = 3 ∧ (turn (State.reset.setQueueState 0 0 1 0) (packetOf 1 0 0)).inProgress 0 0 = true ∧
    (turn (State.reset.setQueueState 0 0 2 0) (packetOf 1 0 0)).queueState 0 0 = 2 ∧
    (turn (State.reset.setQueueState 0 0 2 0) (packetOf 1 0 0)).inProgress 0 0 = true := by decide

/-- Reports whose places lie outside the protected range, and whose bytes read as correct. -/
theorem test_reportsHold : (asking 0xFFFFFFF).inProt mapped.die (((asking 0xFFFFFFF).protRange mapped.die).1 + 64 * (0xFFFFFFF % 2 ^ 28)) 32 = false ∧
    (asking 0).poisoned .scene mapped.addr 128 = false ∧ (match (asking 0).vectorBytes mapped with | (b, s) => b.length == 64 && !s.poisoned .scene 0 32) = true := by
  decide

/-- Boot images that pass and that fail; a load of bytes that read as uncorrectable. -/
theorem test_bootHolds : bootAccepts { signed := true, keyHash := Config.fusedKeyHash, version := Config.rollbackCounter } = true ∧
    bootAccepts { signed := false, keyHash := [], version := 0 } = false ∧
    ({ State.reset with poison := [(.scene, 64)] } : State).poisoned .scene 64 4 = true ∧ State.reset.poisoned .scene 64 4 = false := by
  refine ⟨by simp [bootAccepts], by simp [bootAccepts], by decide, by decide⟩

/-! ### Cases of the third review -/

/-- Words that decode to an instruction and words with reserved fields, at the turn of each stream; a lane word out of its place. -/
theorem test_reservedTurnsHold : ([0x501C0010, 0x19 * 2 ^ 25 + 3, 0x47 * 2 ^ 25 + 1].all fun w =>
      ready (State.reset.withFetchWord 32 w) (.scalar 0) (placedGroup false false) { group := 0, word := w } 0 4 3) = true ∧
    decodeScalar (0x19 * 2 ^ 25 + 3) = .reserved false ∧ decodeScalar (0x47 * 2 ^ 25 + 1) = .reserved false ∧
    (placedGroup false false).scalarIdle = none ∧ (placedGroup false false).stopS.halt = false ∧
    ready (State.reset.withFetchWord 96 (0xFF * 2 ^ 88 + 1)) (.lane 0 false) (placedGroup true true)
      { group := 0, lane := true, word := 0xFF * 2 ^ 88 + 1 } 0 12 0 = true ∧
    decodeLane (0xFF * 2 ^ 88 + 1) = .reserved false ∧ ((placedGroup true true).ctx.path false).left = 0 ∧
    (placedGroup true true).laneIdleWhy false = none ∧ ((placedGroup true false).ctx.path false).left ≠ 0 ∧
    laneOpcode (0xFF * 2 ^ 88) = 0xFF ∧ ((placedGroup true false).ctx.path false).xAt = none ∧
    ((placedGroup true false).ctx.path false).serial = none := by decide

/-- An `fwait` of f0 while a clause that sets it is under way issues later, one of f11 does not, nor one with no lane code. -/
def fwaitFirst (g : Group) (w : Nat) : State := { State.reset.withFetchWord 32 w with groups := [g], agenda := [.scalar 0] }
theorem test_laterIssueHolds : ([0x98000004, 0x98002000].all fun w =>
      ready (fwaitFirst (placedGroup true false) w) (.scalar 0) (placedGroup true false) { group := 0, word := w } 0 4 3) = true ∧
    decodeScalar 0x98000004 = .instr (.fwait 1) ∧ (placedGroup true false).scalarIdle = none ∧
    (fwaitFirst (placedGroup true false) 0x98000004).issuesLater (placedGroup true false) (.fwait 1) = true ∧
    (fwaitFirst (placedGroup true false) 0x98002000).issuesLater (placedGroup true false) (.fwait 0x800) = false ∧
    (fwaitFirst (grp []) 0x98000004).issuesLater (grp []) (.fwait 1) = false := by decide

/-- A `bar` that stands where the group waits, and one elsewhere; a `barw` whose generation has ended. -/
theorem test_barrierHereHold : ({ grp [] with barAt := some 15, barPc := 0 } : Group).barHere = some 15 ∧
    ({ grp [] with barAt := some 15, barPc := 4 } : Group).barHere = none ∧ 15 < ((at0 (grp [])).blockOf (grp [])).nBar ∧
    (let g : Group := { grp [] with barWaited := 15, barW := some 7 }
     g.barW = some 7 ∧ (7 : Word) ≠ (((at0 g).blockOf g).bar 15).gen) := by decide

/-- A return to the context with a PREEMPT pending, and with none; the last group of a block to save. -/
theorem test_pendingPreemptHolds : (let g : Group := { hand [(30, 60)] with preempt := some (0, 65536) }
      (at0 g).group? 0 = some g ∧ g.entry = .trap ∧ g.preempt = some (0, 65536) ∧ g.ops = [] ∧ g.deferred = [] ∧ g.atBoundary = true ∧
      (at0 g).partnerBusy g = false ∧ (at0 g).forwards = [] ∧ (at0 g).copies = []) ∧
    (∀ x ∈ (at0 { hand [] with entry := .save }).groupsOf 0, x.uid = 0) ∧ 15 < ((at0 (hand [])).blockOf (hand [])).nBar := by decide

/-- Special registers of a neighbourhood, of a class with a deadline, of a strict grid. -/
theorem test_specialPlacesHold : ({ placedGrid with nbhd := 4 } : Grid).nbhd ≠ 0 ∧ placedGrid.nbhd = 0 ∧ 2 ≤ placedGrid.cls ∧
    ({ placedGrid with cls := 1 } : Grid).cls < 2 ∧ ((strictAt (grp [])).gridOf (grp [])).strict = true ∧ placedGrid.strict = false := by
  decide

/-- What bars a lane instruction, in its order: no flag, a field of its own, a register, a tile, a feed, a shadow tile. -/
def bars (g : Group) (i : Instr) : Option Barred :=
  i.laneRule.bind fun x => (laneAt g).barred g false i x.1 x.2
theorem test_barsInOrderHold :
    bars flagless (.vaccr (lop .b32 .imm 4 0 0 0 1024)) = some (.trap .reservedField (BitVec.allOnes 32) 0) ∧
    bars calm (.vaccr (lop .b32 .imm 4 0 0 0 1024)) = some (.trap .reservedField (BitVec.allOnes 32) 0) ∧
    bars calm (.vsamp (lop .b32 .uni 0 8 0 0 6)) = none ∧
    bars { calm with ureg := [(6, 2 ^ 29)] } (.vsamp (lop .b32 .uni 0 8 0 0 6)) = some (.trap .reservedField (BitVec.allOnes 32) 0) ∧
    bars small (.vadd (r .i32)) = some (.trap .registerRange (BitVec.allOnes 32) 8) ∧
    bars calm (.vaccr (lop .b32 .imm 4 0 0 0 64)) = some (.trap .registerRange (BitVec.allOnes 32) 64) := by decide

/-- Numbers from the immediate and from a register; a view that leaves the share. -/
theorem test_namesHold : Names (laneAt calm) calm (lop .b32 .imm 4 0 0 0 64) 64 ∧ Names (laneAt calm) calm (lop .b32 .uni 4 0 0 0 6) 0 ∧
    (laneAt { calm with ureg := [(6, 1)] }).viewFault { calm with ureg := [(6, 1)] } 1 = some .accessViolation ∧
    clear { calm with ureg := [(6, 1)] } (.vsamp (lop .b32 .uni 0 8 0 0 6)) = true := by
  unfold Names
  decide

/-- A deferred fault of a flag that a header waits for. -/
theorem test_waitedForHolds : ∃ d, d ∈ faulty.deferred ∧ WaitedFor faulty ⟨0x004, false, 0, false, 0, 0, false⟩ d :=
  ⟨_, List.mem_cons_self, by decide, 2, by decide⟩

/-- An access in memory whose bytes are right, and uncorrectable. -/
theorem test_inMemoryHolds : InMemory place ∧ (at0 (grp [])).badRuns (grp []) place.locs = false ∧
    ({ at0 (grp []) with poison := [(.core, 8)] } : State).badRuns (grp []) place.locs = true ∧ place.locs ≠ [] ∧
    ({} : MmaDesc).smode false ≠ 2 ∧ ({} : MmaDesc).int = false ∧ ({ w0 := 5 } : MmaDesc).int = true := by
  refine ⟨⟨rfl, rfl, ?_⟩, by decide, by decide, by decide, by decide, by decide⟩
  simp [place]

/-- A transfer on the mesh and a copy between two places of it; a code line with a byte that cannot be read. -/
def meshed : Work := .mtld 0 1 { place with slice := true }
def badLine : CodeLine := { bytes := List.replicate 64 0, bad := [4] }
theorem test_meshHolds : (inFlight meshed).transferSent (doing meshed) (does meshed) { place with slice := true } = true ∧
    (doing meshed).op? (failedOper 0) = none ∧ (∀ o ∈ (doing meshed).ops, o.id < 2 ^ 32) ∧
    (let c : Copy := { aCopy with st := .started, bytes := leBytes 32 (6 * 2 ^ 252 + 2 ^ 128 * 64) }
     (copying c).copies.find? (fun x => x.owner == 0 && x.id == 0) = some c ∧ (copying c).copyOnMesh c = true) ∧
    (({ at0 (grp []) with lines := [badLine] } : State).line? 0 0 0 false 0) = some badLine ∧ (∃ i ∈ badLine.bad, 0 ≤ i ∧ i < 0 + 8) ∧
    (∀ i ∈ badLine.bad, i < 0 ∨ 0 + 4 ≤ i) ∧ peerAcc.awaits = true ∧ (MemKind.store).writes = true ∧
    (let w : Work := .mem .store .none [peerAcc]
     (doing w).inOrder (does w) .store = true ∧ (doing w).blocked (does w) peerAcc = false) := by decide

/-- A stop with no event due; a copy whose object has reserved bits. -/
theorem test_stopsHold : ([0, 1, 3].all fun n => ((grp []).holdPath n).dueEvents n == []) = true ∧
    (let c : Copy := { bytes := leBytes 32 (0xFF4000000000 + 2 ^ 64 * 0xFF4000000100 + 2 ^ 192 * (2 * 2 ^ 60)) }
     c.slotVa + 32 ≤ ((copying c).ownShare ((copying c).copyGroup c)).2) := by decide

/-- A lane of `vsamp` inside its view with each overlap bit; a slot of 32 zeros, one whose check fails; a ray that misses, one that
may hit; an empty bin; a reserved texture; logits of which none counts. -/
def rayWords : List Word := [0, 0, 0, 0x3F800000, 0, 0, 0, 0x3F800000]
theorem test_engineResultsHold : (viewOf 0).tile (([0] : List Word).getD 0 0) = some 0 ∧
    bitAt (recordNat (List.replicate 8 0)) 238 = false ∧ bitAt (recordNat (List.replicate 7 0 ++ [0x4000])) 238 = true ∧
    (laneAt calm).headBad 0 0 (viewOf 0) 0 = false ∧ ({ laneAt calm with poison := [(.sample, 1024)] } : State).headBad 0 0 (viewOf 0) 0 = true ∧
    leNat [1] ≠ 0 ∧ crc16 ([1].take 30) ≠ leNat [1] / 2 ^ 240 ∧ rayOf (List.replicate 8 0) = none ∧ (rayOf rayWords).isSome = true ∧
    (match (at0 (grp [])).columnRead (grp []) 0xFF4000000000 64 with | .ok b _ => leNat b == 0 | _ => false) = true ∧
    ((rayOf rayWords).map fun y => reachable y (0x7C00)) = some [] ∧
    2 < (textureOf (3 * 2 ^ 96)).format ∧ (textureOf 0).linear = false ∧ (textureOf 0).format ≤ 2 ∧
    (∀ l ∈ [0x7FC00000, fp32.infBits true], fp32.isNan l = true ∨ l = fp32.infBits true) ∧ fp32.infBits false ∈ [0, 0x7F800000] ∧
    (described 64 []).ownRange (mem1 0xFF40 0) 0xFF4000000000 64 64 = .inr 0 ∧
    (described 64 []).poolFull 0 0 = false ∧ (described 64 []).ownBad (mem1 0xFF40 0) 0 64 = false := by decide
/-- A node whose one child that the ray meets is a leaf: child 0 the point 0, the other boxes empty. -/
def leafNode : Nat := 2 ^ 120 + 0x3C00 * (2 ^ 48 + 2 ^ 64 + 2 ^ 80) + ((List.range 7).map fun k => 255 * 2 ^ (176 + 48 * k)).sum
theorem test_leafReachable : ((rayOf rayWords).map fun y => reachable y leafNode) = some [(0, true)] := by decide +kernel

/-- Records of a queue and of none; a selector that names no stream; uncorrectable debug reads; a group that FIND does not name. -/
theorem test_reviewEventsHold : ({ queue := 31, seq := some 7 } : Unanswered).queue < 32 ∧
    32 ≤ ({ queue := noQueue, seq := some 7 } : Unanswered).queue ∧ State.reset.recordBySeq 0 0 7 = none ∧
    bits ((boxed (at0 (grp [])) [1, 0x20000]).mboxN 0 1) 18 16 ∉ [0, 1, 3, 4] ∧
    ({ imaged with poison := [(.scene, 2 ^ 30)] } : State).poisoned .scene (2 ^ 30) 4 = true ∧
    (∀ g ∈ (at0 (grp [])).groups, g.index ≠ 1) := by decide

/-- A sample of a quarter with no stalled group, and with one; its ring with a slot and full. -/
theorem test_sampleRecordsHold : State.reset.stalled 0 0 1 0 = none ∧ (at0 idle).stalled 0 0 0 0 = some idle ∧ idle.why = some 4 ∧
    (0 + 2 ^ 17 - 0) % 2 ^ 17 ≠ 2 ^ 4 ∧ (16 + 2 ^ 17 - 0) % 2 ^ 17 = 2 ^ 4 ∧ (at0 idle).partOf idle < 16 ∧ idle.gid < 2 ^ 13 := by decide

/-- A band whose page has been translated, one whose page has not, one for whose page there is no leaf, one that a store holds. -/
def bandGiven : Band := { band1 with leaves := match walk imaged mapped 0 with | .leaf p b n => [{ va := b, len := n, pte := BitVec.ofNat 64 p }] | _ => [] }
def bandLost : Band := { band1 with absent := some 0 }
theorem test_bandReadsHold :
    (let s : State := { imaged with bands := [bandGiven] }
     s.bandMiss bandGiven = none ∧
     (match s.readVa (s.bandLook bandGiven) bandGiven.buffer bandGiven.bytes (bandGiven.bytes / 64 + 2) with | .ok _ => true | _ => false) = true) ∧
    (let s : State := { imaged with bands := [bandLost] }
     s.bandMiss bandLost = none ∧
     (match s.readVa (s.bandLook bandLost) bandLost.buffer bandLost.bytes (bandLost.bytes / 64 + 2) with | .ok _ => false | _ => true) = true) ∧
    ({ imaged with bands := [band1] } : State).bandMiss band1 = some 0 ∧
    (opOf .store .none 1 [5]).holdsBand { band1 with op := 1 } = true ∧ (opOf .store .none 1 [5]).holdsBand band1 = false := by decide

/-! ### Cases of the fourth review -/

/-- A strict feed of register 5 that lane 0 has not observed, one that it has. -/
def feedOf (seen : Word) : Group := { grp [] with feeds := [{ reg := 5, strict := true, seen := seen }] }
theorem test_pathFedHolds : PathFed (feedOf 0) 1 [5] ∧ ¬ PathFed (feedOf 1) 1 [5] ∧
    (let l := lop .i32 .reg 5 6 8 0 0
     ((Instr.vadd l).laneRule.map fun r => !r.2.flag && laneOut (feedOf 0) l r.2 == none && destRegs (.vadd l) r.1 r.2 == [5]) = some true ∧
     (at0 (feedOf 0)).reservedOwn (feedOf 0) (.vadd l) l = false ∧ (at0 (feedOf 0)).tileOut (feedOf 0) (.vadd l) l = none) := by
  refine ⟨⟨by decide, _, List.mem_cons_self .., by decide⟩, ?_, ?_⟩
  · rintro ⟨-, f, hf, -, hs, -⟩
    cases List.mem_singleton.1 hf
    exact absurd hs (by decide)
  · decide

/-- A request whose target is a register of the window, one whose target is an object in the share, with its reserved bits 0 and not. -/
def landing (land : Nat) : Copy := { bytes := leBytes 32 (land * 2 ^ 250 + 5 * 2 ^ 224 + 64 * 2 ^ 128 + 0xFF4000000000 + 2 ^ 64 * 0xFF4000000100) }
def reservedObject : State := (copying (landing 2)).writeMem .core 92 [1]
theorem test_landingsHold : (landing 1).land = 1 ∧ (copying (landing 1)).copyRefused (landing 1) = none ∧ (landing 1).target % 512 ≠ 0 ∧
    (landing 2).land = 2 ∧ 16 * ((landing 2).target % 2 ^ 17) + 16 ≤ ((copying (landing 2)).ownShare (grp [])).2 ∧ (landing 2).slotVa % 32 = 0 ∧
    (copying (landing 2)).objectBad (landing 2) = false ∧ reservedObject.objectBad (landing 2) = true ∧
    reservedObject.group? (landing 2).owner = some (grp []) ∧ (grp []).exited = false := by decide

/-- A `waitm` whose read the mesh has failed to carry, and the event that says so; a line of code that its core has asked for. -/
def lostWaitm : Group := { mem1 0 0 with waitMesh := true }
def lineAsked : State := let s := at0 (grp []); s.setDie 0 { s.die 0 with fills := [{ cores := [0], locs := [(0, 64)] }] }
theorem test_meshLossesHold :
    (match (sdState (at0 lostWaitm)).check lostWaitm .read 16 (lostWaitm.u64 6).toNat 16 with
     | .ok acc _ => acc.onMesh && lostWaitm.ops.all (fun o => !o.paths.contains acc.path) | _ => false) = true ∧
    (let g : Group := { grp [] with whyS := some 6 }
     (at0 g).group? 0 = some g ∧ (∀ o ∈ g.ops, o.id < g.nextOp) ∧ g.nextOp < 2 ^ 32 ∧ g.whyS = some 6) ∧
    (lineAsked.die 0).fills.find? (fun x => x.lane == false && x.part == lineAsked.partOf (grp []) && x.cores.contains (grp []).core) =
      some { cores := [0], locs := [(0, 64)] } := by decide

/-- A store of tiles with four operations held; a token draw behind an earlier one of its stack, and the first of them. -/
def fourHeld : Group := { mem1 0 0 with ops := List.replicate 4 { work := .mtst 0 1 { held := true } } }
def twoDraws : Group := { doing drawn with ops := [{ does drawn with id := 1, seq := 2 }, does drawn], nextOp := 2 }
theorem test_heldAndDrawsHold : (match (sdState (strictAt fourHeld)).checkRange fourHeld .write (fourHeld.u64 6).toNat 1024 with
      | .ok _ sd => sd | _ => false) = true ∧ ((sdState (strictAt fourHeld)).gridOf fourHeld).strict = true ∧
    (sdState (strictAt fourHeld)).holdsToken fourHeld = false ∧ 4 ≤ fourHeld.heldCount ∧
    (∃ x ∈ (at0 twoDraws).groups, x.die = twoDraws.die ∧ ∃ y ∈ x.ops, y.work.isTokenDraw = true ∧ y.seq < 2) ∧
    (∀ x ∈ (inFlight drawn).groups, x.die = (doing drawn).die → ∀ y ∈ x.ops, y.work.isTokenDraw = true → (does drawn).seq ≤ y.seq) := by
  refine ⟨by decide, by decide, by decide, by decide, ⟨_, List.mem_cons_self .., by decide, does drawn, by decide, by decide, by decide⟩, ?_⟩
  decide

/-- A copy from the other stack whose view leaves the share. -/
theorem test_droppedForwardHolds : (viewOf (2 ^ 13 - 1)).tile (word (leNat (leBytes 32 0))) = some 0 ∧
    sampled.viewOut 0 0 (viewOf (2 ^ 13 - 1)) = true := by decide

/-- A block whose group joins a child that its park helps: one of class 2, and one of class 1. -/
theorem test_parksHold : (parking.parkFor placedBlock).isSome = true ∧
    (let s : State := { parking with grids := parking.grids.map fun k => if k.uid = 9 then { k with cls := 1 } else k }
     ((s.parkFor placedBlock).map fun k => (s.parkUnit k).isSome) = some true) := by decide
end Sys2Proof.Tests
end

section
/-! SUPPORT. What a store to a memory does to its bytes and to the others (R3), and little-endian numbers. -/
namespace Sys2Proof.Laws
open Sys2Proof.Machine

/-! ### Runs of bytes (R3) -/

/-- A write changes no byte outside its run. -/
theorem byte_write_outside (m : Mem) (a k : Nat) (bs : List Byte) (h : k < a ∨ a + bs.length ≤ k) :
    Mem.byte (Mem.write m a bs) k = Mem.byte m k := by
  induction bs generalizing m a with
  | nil => rfl
  | cons b t ih =>
    rw [List.length_cons] at h
    rw [Mem.write, ih _ _ (by omega), byte_setByte, if_neg (by omega)]

/-- Byte `i` of a written run is the `i`-th byte that was stored. -/
theorem byte_write_inside (m : Mem) (a i : Nat) (bs : List Byte) (b : Byte) (h : bs[i]? = some b) :
    Mem.byte (Mem.write m a bs) (a + i) = b := by
  induction bs generalizing m a i with
  | nil => simp at h
  | cons c t ih =>
    cases i with
    | zero =>
      have hc : c = b := by simpa using h
      rw [Mem.write, byte_write_outside _ _ _ _ (by omega), byte_setByte, if_pos (Nat.add_zero a), hc]
    | succ i =>
      rw [Mem.write, show a + (i + 1) = a + 1 + i by omega]
      exact ih _ _ _ (by simpa using h)

/-- A written run reads back. -/
theorem read_write (m : Mem) (a : Nat) (bs : List Byte) : Mem.read (Mem.write m a bs) a bs.length = bs := by
  apply List.ext_getElem (by simp [Mem.read])
  intro i hi hb
  simp [Mem.read, byte_write_inside m a i bs bs[i] (by simp [hb])]

@[simp] theorem length_leBytes (n v : Nat) : (leBytes n v).length = n := by
  induction n generalizing v with
  | zero => rfl
  | succ n ih => rw [leBytes, List.length_cons, ih]

/-- Little-endian bytes hold the number, as far as they reach. -/
theorem leNat_leBytes (n v : Nat) : leNat (leBytes n v) = v % 2 ^ (8 * n) := by
  induction n generalizing v with
  | zero => simp [leBytes, leNat, Nat.mod_one]
  | succ n ih =>
    rw [leBytes, leNat, ih, BitVec.toNat_ofNat, show 8 * (n + 1) = 8 + 8 * n by omega, Nat.pow_add, Nat.mod_mul]

/-! ### Stores to the memories of a state -/

/-- A stored memory holds the run. -/
theorem mem_writeMem (s : State) {sp : Space} (a : Nat) (bs : List Byte)
    (h : sp = .scene ∨ sp = .core ∨ sp = .bank ∨ sp = .sample) :
    (s.writeMem sp a bs).mem sp = Mem.write (s.mem sp) a bs := by
  rcases h with rfl | rfl | rfl | rfl <;> rfl

/-- A store leaves the other memories as they were. -/
theorem mem_writeMem_ne (s : State) {sp sq : Space} (a : Nat) (bs : List Byte) (h : sq ≠ sp) :
    (s.writeMem sp a bs).mem sq = s.mem sq := by
  have hm := mem_setMem_ne s (Mem.write (s.mem sp) a bs) h
  cases sq <;> exact hm

/-- A store leaves every byte outside its run as it was, in every space. -/
theorem byte_writeMem_outside (s : State) (sp : Space) (a k : Nat) (bs : List Byte) (h : k < a ∨ a + bs.length ≤ k) :
    Mem.byte ((s.writeMem sp a bs).mem sp) k = Mem.byte (s.mem sp) k := by
  cases sp with
  | scene | core | bank | sample => rw [mem_writeMem s a bs (by simp), byte_write_outside _ _ _ _ h]
  | uniform | tile | stream => rfl

end Sys2Proof.Laws

namespace Sys2Proof.Settled
open Sys2Proof.Machine Sys2Proof.Laws

/-- Settles O4: one byte by `byte_write_inside`, the frame by `byte_writeMem_outside`, numbers by `leNat_leBytes`. -/
theorem memoryReadAfterWrite : Obligations.MemoryReadAfterWrite := by
  refine ⟨?_, ?_, ?_⟩
  · intro s sp a bs i b hsp hb
    rw [mem_writeMem s a bs hsp, byte_write_inside _ _ _ _ _ hb]
  · intro s sp sq a bs k h
    by_cases hne : sq = sp
    · subst hne
      exact byte_writeMem_outside s sq a k bs (h.resolve_left fun hn => hn rfl)
    · rw [mem_writeMem_ne s a bs hne]
  · intro s sp a n v hsp
    have hread := read_write (s.mem sp) a (leBytes n v)
    rw [length_leBytes] at hread
    rw [State.readMem, mem_writeMem s a _ hsp, hread, leNat_leBytes]

end Sys2Proof.Settled
end

section
/-! SUPPORT. The register windows: the meaning of the events that write registers, and what each write of a register that acts does,
one equation for each of its cases (R340, R343, R347, R353, R377, R379, R407, R415). -/
namespace Sys2Proof.Laws
open Sys2Proof.Machine

/-! ### Events -/

@[simp] theorem exec_pkQwidxWrite (die q : Nat) (w : Word) (s : State) :
    exec (.pkQwidxWrite die q w) s = .next (s.queueNotify die q w) := rfl
@[simp] theorem exec_pkQcfgWrite (die q : Nat) (w : Word) (s : State) :
    exec (.pkQcfgWrite die q w) s = .next (s.queueConfig die q w) := rfl
@[simp] theorem exec_pkQctlStop (die q : Nat) (s : State) : exec (.pkQctlStop die q) s = .next (s.queueStop die q) := rfl
@[simp] theorem exec_pkQctlTerminate (die q : Nat) (s : State) :
    exec (.pkQctlTerminate die q) s = .next (s.queueTerminate die q) := rfl
@[simp] theorem exec_pkQctlResume (die q : Nat) (s : State) : exec (.pkQctlResume die q) s = .next (s.queueResume die q) := rfl
@[simp] theorem exec_pkQctlReset (die q : Nat) (s : State) : exec (.pkQctlReset die q) s = .next (s.queueReset die q) := rfl
@[simp] theorem exec_icCtlWrite (die q : Nat) (w : Word) (s : State) :
    exec (.icCtlWrite die q w) s = .next (s.icControl die q w) := rfl
@[simp] theorem exec_twResolveRetry (die p seq : Nat) (s : State) :
    exec (.twResolveRetry die p seq) s = .next (s.resolveRetry die p seq) := rfl
@[simp] theorem exec_twResolveTerminate (die p seq : Nat) (s : State) :
    exec (.twResolveTerminate die p seq) s = .next (s.resolveTerminate die p seq) := rfl
@[simp] theorem exec_twPdaddrWrite (die p : Nat) (w : Word) (s : State) :
    exec (.twPdaddrWrite die p w) s = .next (s.pdaddr die p w) := rfl
@[simp] theorem exec_egLockWrite (w : Word) (s : State) : exec (.egLockWrite w) s = .next (s.lockEg w) := rfl
@[simp] theorem exec_attestationReport (s : State) : exec .attestationReport s = execAttestationReport s := rfl
@[simp] theorem exec_registerWrite (die off n : Nat) (v : DWord) (src : Source) (s : State) :
    exec (.registerWrite die off n v src) s = .next (s.writeRegs die off n v src) := rfl

/-! ### Registers and the units of a stack -/

/-- Registers less than a window apart are stored at different places. -/
theorem mmioKey_ne (die : Nat) {a b : Nat} (h : a < b) (hb : b < a + 2 ^ 24) : mmioKey die a ≠ mmioKey die b := by
  unfold mmioKey
  split <;> split <;> omega

/-- A number stored in a register reads back modulo 2^32. -/
theorem regN_setRegN (s : State) (die off v : Nat) : (s.setRegN die off v).regN die off = v % 2 ^ 32 := by
  rw [State.regN, State.setRegN, reg_setReg, word, BitVec.toNat_ofNat]

@[simp] theorem reg_setDie (s : State) (n d o : Nat) (x : Die) : (s.setDie n x).reg d o = s.reg d o := by simp [State.reg]
@[simp] theorem regN_setDie (s : State) (n d o : Nat) (x : Die) : (s.setDie n x).regN d o = s.regN d o := by simp [State.regN]

/-- Two numbers that both name stack A, or both stack B, name one stack. -/
theorem die_congr (s : State) {n m : Nat} (h : n = 0 ↔ m = 0) : s.die n = s.die m := by
  unfold State.die
  simp [h]

/-- The packets of a stack after a change of them. -/
theorem packets_mapPackets (s : State) (die : Nat) (f : List Packet → List Packet) :
    ((s.mapPackets die f).die die).packets = f (s.die die).packets := by simp [State.mapPackets]

@[simp] theorem setReg_die (s : State) (die off d : Nat) (v : Word) : (s.setReg die off v).die d = s.die d := by
  simp [State.die]

/-! ### A wake (R417) -/

@[simp] theorem wake_heldRecords (s : State) (die : Nat) : (s.wake die).heldRecords = s.heldRecords := by
  simp [State.wake, State.setPower]
@[simp] theorem wake_grids (s : State) (die : Nat) : (s.wake die).grids = s.grids := by simp [State.wake, State.setPower]
@[simp] theorem wake_reg (s : State) (die d o : Nat) : (s.wake die).reg d o = s.reg d o := by simp [State.wake, State.setPower]
@[simp] theorem wake_regN (s : State) (die d o : Nat) : (s.wake die).regN d o = s.regN d o := by
  simp [State.wake, State.setPower]
@[simp] theorem wake_packets (s : State) (die d : Nat) : ((s.wake die).die d).packets = (s.die d).packets := by
  unfold State.wake State.setPower
  rw [die_setDie]
  split
  · next h => rw [← die_congr s h]
  · rfl

/-- A wake starts and ends no work of a partition. -/
@[simp] theorem partBusy_wake (s : State) (die num : Nat) : (s.wake die).partBusy num = s.partBusy num := by
  simp [State.partBusy, State.queuePart, State.inProgress, State.packet?, State.queueState]

/-! ### Queues (R353) -/

/-- A notify of more packets than the ring holds stops the queue with reason 0x10. -/
theorem queueNotify_over (s : State) (die q : Nat) (w : Word)
    (h : 2 ^ bits (s.regN die (pkQ q 8)) 20 16 < (w.toNat % 2 ^ 17 + 2 ^ 17 - s.regN die (pkQ q 0x10)) % 2 ^ 17) :
    s.queueNotify die q w =
      ((s.setRegN die (pkQ q 0xC) (w.toNat % 2 ^ 17)).wake die).setQueueState die q 2 0x10 := if_pos h

/-- A notify of packets that the ring holds sets the write index, and the stack wakes. -/
theorem queueNotify_within (s : State) (die q : Nat) (w : Word)
    (h : (w.toNat % 2 ^ 17 + 2 ^ 17 - s.regN die (pkQ q 0x10)) % 2 ^ 17 ≤ 2 ^ bits (s.regN die (pkQ q 8)) 20 16) :
    s.queueNotify die q w = (s.setRegN die (pkQ q 0xC) (w.toNat % 2 ^ 17)).wake die := if_neg (Nat.not_lt.2 h)

/-- A configuration without enable closes the queue. -/
theorem queueConfig_disabled (s : State) (die q : Nat) (w : Word) (hst : s.queueState die q = 0 ∨ s.queueState die q = 2)
    (hw : w.getLsbD 8 = false) :
    s.queueConfig die q w = (s.store die (pkQ q 8) 0x1F010F w).setQueueState die q 0 0 := by
  rcases hst with hst | hst <;> simp [State.queueConfig, hst, hw, -BitVec.getLsbD_eq_getElem]

/-- A configuration with enable opens the queue where its owner is valid and its ring lies in the owner's quota. -/
theorem queueConfig_enabled (s : State) (die q : Nat) (w : Word) (p : Part)
    (hst : s.queueState die q = 0 ∨ s.queueState die q = 2) (hw : w.getLsbD 8 = true)
    (hp : s.part? die (w.toNat % 16) = some p) (hlo : 4 ≤ bits w.toNat 20 16) (hhi : bits w.toNat 20 16 ≤ 16)
    (hring : s.ringInQuota p die q (bits w.toNat 20 16) = true) :
    s.queueConfig die q w = (s.store die (pkQ q 8) 0x1F010F w).setQueueState die q 1 0 := by
  rcases hst with hst | hst <;> simp [State.queueConfig, hst, hw, hp, hlo, hhi, hring]

theorem queueStop_idle (s : State) (die q : Nat) (hst : s.queueState die q = 1) (hp : s.inProgress die q = false) :
    s.queueStop die q = s.setQueueState die q 2 0 := by simp [State.queueStop, hst, hp]

theorem queueStop_busy (s : State) (die q : Nat) (hst : s.queueState die q = 1) (hp : s.inProgress die q = true) :
    s.queueStop die q = s.mapPackets die fun l => l.map fun p => if p.queue == q then { p with stop := true } else p := by
  simp [State.queueStop, hst, hp]

theorem queueStop_closed (s : State) (die q : Nat) (hst : s.queueState die q ≠ 1) : s.queueStop die q = s := by
  simp [State.queueStop, hst]

theorem queueTerminate_live (s : State) (die q : Nat)
    (h : s.queueState die q = 1 ∨ s.queueState die q = 2 ∨ (s.queueState die q = 0 ∧ s.queueOpen die q = true)) :
    s.queueTerminate die q = s.terminate die q 3 0xF8 := if_pos (by simpa [or_assoc] using h)

theorem queueTerminate_ended (s : State) (die q : Nat)
    (h : s.queueState die q = 3 ∨ (s.queueState die q = 0 ∧ s.queueOpen die q = false)) : s.queueTerminate die q = s := by
  rcases h with h | ⟨h, ho⟩
  · simp [State.queueTerminate, h]
  · simp [State.queueTerminate, h, ho]

theorem queueResume_stopped (s : State) (die q : Nat)
    (h : s.queueState die q = 2 ∨ (s.queueState die q = 3 ∧ s.queueOpen die q = false)) :
    s.queueResume die q = s.setQueueState die q 1 0 := if_pos (by simpa using h)

theorem queueReset_stopped (s : State) (die q : Nat) (hst : s.queueState die q = 2) (ho : s.queueOpen die q = false) :
    s.queueReset die q =
      ((s.mapPackets die fun l => l.map fun p => if p.queue == q then { p with stale := true } else p).setReg die
        (pkQ q 0xC) 0).setReg die (pkQ q 0x10) 0 := if_pos (by simp [hst, ho])

theorem queueReset_refused (s : State) (die q : Nat) (h : s.queueState die q ≠ 2 ∨ s.queueOpen die q = true) :
    s.queueReset die q = s := by
  rcases h with h | h <;> simp [State.queueReset, h]

/-- A reset that acts leaves both indices 0. -/
theorem queueReset_indices (s : State) (die q : Nat) (hst : s.queueState die q = 2) (ho : s.queueOpen die q = false) :
    (s.queueReset die q).reg die (pkQ q 0xC) = 0 ∧ (s.queueReset die q).reg die (pkQ q 0x10) = 0 := by
  have hkey : mmioKey die (pkQ q 0xC) ≠ mmioKey die (pkQ q 0x10) := mmioKey_ne die (by unfold pkQ; omega) (by unfold pkQ; omega)
  rw [queueReset_stopped s die q hst ho]
  exact ⟨by rw [reg_setReg_ne _ _ hkey, reg_setReg], reg_setReg _ _ _ _⟩

/-- After a reset that acts, a packet in progress no longer moves the read index. -/
theorem queueReset_stale (s : State) (die q : Nat) (hst : s.queueState die q = 2) (ho : s.queueOpen die q = false) :
    ∀ p ∈ ((s.queueReset die q).die die).packets, p.queue = q → p.stale = true := by
  rw [queueReset_stopped s die q hst ho, setReg_die, setReg_die, packets_mapPackets]
  intro p hp hq
  obtain ⟨x, -, rfl⟩ := List.mem_map.1 hp
  by_cases hx : x.queue = q <;> simp_all

/-! ### Interrupts, records, the allowlist -/

theorem icControl_enabled (s : State) (die q : Nat) (w : Word) (h : w.getLsbD 31 = true) :
    s.icControl die q w = s.store die (icQ q 0) 0x807FFFFF w := if_pos h

theorem icControl_disabled (s : State) (die q : Nat) (w : Word) (h : w.getLsbD 31 = false) :
    s.icControl die q w = (s.store die (icQ q 0) 0x807FFFFF w).setCoalesce die q {} := if_neg (by rw [h]; decide)

theorem resolveRetry_none (s : State) (die p seq : Nat) (h : s.recordBySeq die p seq = none) :
    s.resolveRetry die p seq = s := by simp [State.resolveRetry, h]

theorem resolveRetry_some (s : State) (die p seq : Nat) (u : Unanswered) (h : s.recordBySeq die p seq = some u) :
    s.resolveRetry die p seq = ({ s with unanswered := s.unanswered.erase u } : State).release die p u.page := by
  simp [State.resolveRetry, h]

theorem resolveTerminate_none (s : State) (die p seq : Nat) (h : s.recordBySeq die p seq = none) :
    s.resolveTerminate die p seq = s := by simp [State.resolveTerminate, h]

/-- Terminating a record releases what waits on it as a retry does, and ends its queue context where it has one. -/
theorem resolveTerminate_some (s : State) (die p seq : Nat) (u : Unanswered) (h : s.recordBySeq die p seq = some u) :
    s.resolveTerminate die p seq =
      if u.queue < noQueue then (s.resolveRetry die p seq).terminate die u.queue 3 0xFB else s.resolveRetry die p seq := by
  simp only [State.resolveTerminate, State.resolveRetry, h]

theorem lockEg_locked (s : State) (w : Word) (h : s.locked = true) : s.lockEg w = s := if_pos h
theorem lockEg_unlocked (s : State) (w : Word) (h : s.locked = false) : s.lockEg w = s.store 0 egLock 1 w :=
  if_neg (by simp [h])

/-! ### Partition descriptors (R347) -/

/-- A descriptor is refused while its partition has work. -/
theorem pdaddr_busy (s : State) (die p : Nat) (w : Word) (h : s.partBusy p = true) :
    s.pdaddr die p w = (s.wake die).setRegN die (twPdStatus p) 3 := if_pos (by simpa using h)

/-- A write without valid takes the partition away. -/
theorem pdaddr_cleared (s : State) (die p : Nat) (w : Word) (h : s.partBusy p = false) (hw : w.getLsbD 0 = false) :
    (s.pdaddr die p w).part? die p = none ∧ (s.pdaddr die p w).reg die (twPdStatus p) = 0 := by
  simp only [State.pdaddr, partBusy_wake, h, hw, Bool.false_eq_true, if_false]
  refine ⟨?_, reg_setReg _ _ _ _⟩
  simp only [State.part?, State.setRegN, setReg_parts, List.find?_eq_none, List.mem_filter]
  rintro x ⟨-, hx⟩
  rw [Bool.not_eq_true'] at hx
  exact ne_true_of_eq_false hx

/-- A descriptor that breaks a rule is refused. -/
theorem pdaddr_refused (s : State) (die p : Nat) (w : Word) (h : s.partBusy p = false) (hw : w.getLsbD 0 = true)
    (hd : (s.wake die).descOk die p (w.toNat / 64 * 64 + (s.wake die).regN die (twPdHi p) % 65536 * 2 ^ 32) = false) :
    s.pdaddr die p w = (s.wake die).setRegN die (twPdStatus p) 2 := by
  simp only [State.pdaddr, partBusy_wake, h, hw, hd, Bool.false_eq_true, if_false, if_true]

/-! ### Writes of a size (R6) -/

theorem writeRegs_word (s : State) (die off : Nat) (v : DWord) (src : Source) (h : off % 4 = 0) :
    s.writeRegs die off 4 v src = s.writeReg die off (loWord v) src := by simp [State.writeRegs, h]

/-- A write of 8 bytes is two of 4, the low register first. -/
theorem writeRegs_double (s : State) (die off : Nat) (v : DWord) (src : Source) (h : off % 8 = 0)
    (ho : off < twPdLo 0 ∨ twPdLo 16 ≤ off) :
    s.writeRegs die off 8 v src = (s.writeReg die off (loWord v) src).writeReg die (off + 4) (hiWord v) src := by
  have hout : ¬(twPdLo 0 ≤ off ∧ off < twPdLo 16) := by omega
  simp [State.writeRegs, h, hout]

/-- That of TW_PDADDR takes the high register first. -/
theorem writeRegs_pdaddr (s : State) (die off : Nat) (v : DWord) (src : Source) (h : off % 8 = 0)
    (hlo : twPdLo 0 ≤ off) (hhi : off < twPdLo 16) :
    s.writeRegs die off 8 v src = (s.writeReg die (off + 4) (hiWord v) src).writeReg die off (loWord v) src := by
  simp [State.writeRegs, h, hlo, hhi]

theorem writeRegs_size (s : State) (die off n : Nat) (v : DWord) (src : Source) (h4 : n ≠ 4) (h8 : n ≠ 8) :
    s.writeRegs die off n v src = s := by simp [State.writeRegs, h4, h8]

/-- A mailbox word takes no write but an application core's (R416). -/
theorem writeReg_mbox (s : State) (die : Nat) {n : Nat} (w : Word) {src : Source} (h : n < 16) (hsrc : src ≠ .app) :
    s.writeReg die (mbox n) w src = s := by
  have hq : mbox n / 0x100000 = 6 := by simp only [mbox, dbBase]; omega
  have hr : mbox n % 0x100000 = 4 * n := by simp only [mbox, dbBase]; omega
  have hlt : 4 * n < 0x40 := by omega
  unfold State.writeReg
  split
  · rfl
  · simp [hq, hr, hlt, hsrc]

end Sys2Proof.Laws

namespace Sys2Proof.Settled
open Sys2Proof.Machine Sys2Proof.Laws

/-- Settles O58, register by register from the equations of the register windows. -/
theorem registerWriteEvents : Obligations.RegisterWriteEvents := by
  refine ⟨?notify, ?config, ?control, fun _ _ _ _ => rfl, ?interrupt, ?resolve, ?noRecord, ?busy, ?cleared, ?descriptor,
    fun _ _ _ => rfl, ?lock, ?noPartition, ?report, fun _ => rfl, ?sizes, ?mailbox⟩
  case notify =>
    intro s die q w
    exact ⟨fun h => by rw [exec_pkQwidxWrite, queueNotify_over s die q w h],
      fun h => by rw [exec_pkQwidxWrite, queueNotify_within s die q w h]⟩
  case config =>
    intro s die q w hst
    refine ⟨fun hw => ?_, fun p hw hp hlo hhi hring => ?_⟩
    · rw [exec_pkQcfgWrite, queueConfig_disabled s die q w hst hw]
    · rw [exec_pkQcfgWrite, queueConfig_enabled s die q w p hst hw hp hlo hhi hring]
  case control =>
    intro s die q
    simp only [exec_pkQctlStop, exec_pkQctlTerminate, exec_pkQctlResume, exec_pkQctlReset, Host.Outcome.next.injEq]
    exact ⟨queueStop_idle s die q, queueStop_busy s die q, queueStop_closed s die q, queueTerminate_live s die q,
      queueTerminate_ended s die q, queueResume_stopped s die q, fun hst ho _ => queueReset_stopped s die q hst ho,
      fun hst ho _ => ⟨_, rfl, (queueReset_indices s die q hst ho).1, (queueReset_indices s die q hst ho).2,
        queueReset_stale s die q hst ho⟩, queueReset_refused s die q⟩
  case interrupt =>
    intro s die q w
    exact ⟨fun h => by rw [exec_icCtlWrite, icControl_enabled s die q w h],
      fun h => by rw [exec_icCtlWrite, icControl_disabled s die q w h]⟩
  case resolve =>
    intro s die p seq u hu
    have hretry := resolveRetry_some s die p seq u hu
    refine ⟨by rw [exec_twResolveRetry, hretry], fun h => ?_, fun h => ?_⟩
    · rw [exec_twResolveTerminate, resolveTerminate_some s die p seq u hu, if_pos (show u.queue < noQueue from h), hretry]
    · rw [exec_twResolveTerminate, resolveTerminate_some s die p seq u hu, if_neg (show ¬u.queue < noQueue from Nat.not_lt.2 h), hretry]
  case noRecord =>
    intro s die p seq h
    rw [exec_twResolveRetry, exec_twResolveTerminate, resolveRetry_none s die p seq h, resolveTerminate_none s die p seq h]
    exact ⟨rfl, rfl⟩
  case busy =>
    intro s die p w h
    rw [exec_twPdaddrWrite, pdaddr_busy s die p w h]
  case cleared =>
    intro s die p w h hw
    exact ⟨_, exec_twPdaddrWrite .., pdaddr_cleared s die p w h hw⟩
  case descriptor =>
    intro s die p w h hw
    refine ⟨fun hd => ?_, fun hd => ?_⟩
    · rw [exec_twPdaddrWrite]
      simp only [State.pdaddr, partBusy_wake, h, hw, hd, wake_heldRecords, Bool.false_eq_true, if_false, if_true]
      rfl
    · rw [exec_twPdaddrWrite, pdaddr_refused s die p w h hw hd]
  case lock =>
    intro s w
    exact ⟨fun h => by rw [exec_egLockWrite, lockEg_locked s w h],
      fun h => by rw [exec_egLockWrite, lockEg_unlocked s w h], rfl⟩
  case noPartition =>
    intro s req out ha hp
    have hfind : s.parts.find? (fun p => p.num == req / 2 ^ 28) = none := by simpa [List.find?_eq_none] using hp
    simp only [exec_attestationReport, execAttestationReport, ha, hfind]
  case report =>
    intro s req out p ha hp
    refine ⟨fun hout => ?_, fun vec s1 hnonce hrep hdesc hvec hread => ?_⟩
    · rw [exec_attestationReport]
      rcases hout with hout | hout <;>
        simp only [execAttestationReport, ha, hp, hout, Bool.not_false, Bool.true_or, Bool.or_true, if_true]
    · simp only [exec_attestationReport, execAttestationReport, ha, hp, hnonce, hrep, State.engineBytes, hdesc, hvec, hread,
        Bool.not_true, Bool.or_false, Bool.false_eq_true, if_false]
  case sizes =>
    intro s die off v src
    simp only [exec_registerWrite, Host.Outcome.next.injEq]
    exact ⟨writeRegs_word s die off v src, writeRegs_double s die off v src, writeRegs_pdaddr s die off v src,
      fun n => writeRegs_size s die off n v src⟩
  case mailbox =>
    intro s die n v src hsrc hn
    have halign : mbox n % 4 = 0 := by simp only [mbox, dbBase]; omega
    rw [exec_registerWrite, writeRegs_word s die _ v src halign, writeReg_mbox s die _ hn hsrc]

end Sys2Proof.Settled
end

section
/-! SUPPORT. What watches the groups and what comes from outside: the meaning of these events, and one equation for each case of what
they do (R293, R336, R389 to R392, R403, R408 to R414, R417, R418). -/
namespace Sys2Proof.Laws
open Sys2Proof.Machine

/-! ### Events -/

@[simp] theorem exec_stallCounterClk (u : Nat) (s : State) : exec (.stallCounterClk u) s = execStallCounterClk u s := rfl
@[simp] theorem exec_profileSample (die : Nat) (s : State) : exec (.profileSample die) s = execProfileSample die s := rfl
@[simp] theorem exec_barrierWatchdogExpiry (u n : Nat) (s : State) :
    exec (.barrierWatchdogExpiry u n) s = execBarrierWatchdogExpiry u n s := rfl
@[simp] theorem exec_egressBandRead (k : Nat) (s : State) : exec (.egressBandRead k) s = execEgressBandRead k s := rfl
@[simp] theorem exec_sliceTransmit (k : Nat) (s : State) : exec (.sliceTransmit k) s = execSliceTransmit k s := rfl
@[simp] theorem exec_bandDeadlineExpiry (k : Nat) (s : State) :
    exec (.bandDeadlineExpiry k) s = execBandDeadlineExpiry k s := rfl
@[simp] theorem exec_applicationCoreAccess (a : OuterAccess) (s : State) :
    exec (.applicationCoreAccess a) s = execApplicationCoreAccess a s := rfl
@[simp] theorem exec_sramScrub (m : Space) (a : Nat) (f : EccFinding) (s : State) :
    exec (.sramScrub m a f) s = .next (s.scrub m a f) := rfl
@[simp] theorem exec_lpddrScrub (a : Nat) (f : EccFinding) (s : State) :
    exec (.lpddrScrub a f) s = .next (s.scrub .scene a f) := rfl

/-! ### Samples (R390, R391) -/

@[simp] theorem writeMem_die (s : State) (sp : Space) (a d : Nat) (bs : List Byte) :
    (s.writeMem sp a bs).die d = s.die d := by simp [State.writeMem, State.die]

/-- A store to scene memory depends on no other part of the state. -/
theorem scene_writeMem (s : State) (a : Nat) (bs : List Byte) :
    (s.writeMem .scene a bs).scene = Mem.write s.scene a bs := rfl

/-- The reason of a sample's stalled group, and the state once a free value has been drawn where it has none (log 4). -/
def sampleReason (s : State) (st : Option Group) : Nat × State :=
  match st.map Group.why with
  | none => (0, s)
  | some (some r) => (r, s)
  | some none => ((s.takeFree.1.toNat % 16), s.takeFree.2)

/-- The sampler of a stack after a sample: its register steps, and its next sample is due. -/
def stepSampler (s s0 : State) (die : Nat) : State :=
  let x := if s.regN die (pfBase + 8) = 0 then 1 else s.regN die (pfBase + 8)
  (s0.setRegN die (pfBase + 8) (lfsrStep x)).setDie die { s0.die die with
    sampler := { next := some (s.clk + s.sampleGap die (lfsrStep x)), count := (s.die die).sampler.count + 1 } }

/-- A sample's ring has no free slot. -/
def sampleRingFull (s : State) (die : Nat) : Prop :=
  (s.regN die (pfBase + 0x18) + 2 ^ 17 - s.regN die (pfBase + 0x1C)) % 2 ^ 17 =
    2 ^ max 4 (min 16 (s.regN die (pfBase + 0x14)))

/-- The state with a sample's record in the ring. -/
def recordSample (s t : State) (die r : Nat) : State :=
  let head := s.regN die (pfBase + 0x18)
  (t.writeMem .scene (s.ringBase die (pfBase + 0xC) + 32 * (head % 2 ^ max 4 (min 16 (s.regN die (pfBase + 0x14)))))
    (leBytes 32 r)).setRegN die (pfBase + 0x18) ((head + 1) % 2 ^ 17)

/-- The group that a sample finds stalled. -/
def sampleStalled (s : State) (die : Nat) : Option Group :=
  let x := max 1 (s.regN die (pfBase + 8))
  s.stalled die ((s.die die).sampler.count % 128) (x % 4) (4 * bits x 5 2 % 16)

/-- The number of a sample's record, with a reason. -/
def sampleNumber (s : State) (die reason : Nat) : Nat :=
  sampleRecord s (sampleStalled s die) reason
    (s.issuedOn die ((s.die die).sampler.count % 128) (max 1 (s.regN die (pfBase + 8)) % 4))

/-- 0 in the sampler's register acts as 1. -/
theorem samplerWord (v : Nat) : (if v = 0 then 1 else v) = max 1 v := by
  split <;> omega

/-- A sample that is due and enabled steps the sampler, then records what it found or counts a record lost. -/
theorem execProfileSample_due (s : State) (die t : Nat) (hnext : (s.die die).sampler.next = some t) (ht : t ≤ s.clk)
    (hon : bitAt (s.regN die pfBase) 31 = true) :
    let d := sampleReason s (sampleStalled s die)
    let t1 := stepSampler s d.2 die
    (sampleRingFull s die →
      execProfileSample die s = .next (t1.setRegN die (pfBase + 0x20) (t1.regN die (pfBase + 0x20) + 1))) ∧
    (¬sampleRingFull s die → execProfileSample die s = .next (recordSample s t1 die (sampleNumber s die d.1))) := by
  have hguard : ¬(!((s.die die).sampler.next.any (· ≤ s.clk)) || !bitAt (s.regN die pfBase) 31) = true := by
    simp [hnext, ht, hon]
  unfold execProfileSample sampleNumber sampleStalled
  rw [if_neg hguard]
  simp only [← samplerWord]
  exact ⟨fun h => if_pos h, fun h => if_neg h⟩

/-- A group that names its reason, or none, leaves the state as it is. -/
theorem sampleReason_known (s : State) (st : Option Group) (r : Nat)
    (h : (st = none ∧ r = 0) ∨ ∃ g, st = some g ∧ g.why = some r) : sampleReason s st = (r, s) := by
  rcases h with ⟨rfl, rfl⟩ | ⟨g, rfl, hg⟩
  · rfl
  · simp [sampleReason, hg]

@[simp] theorem stepSampler_count (s s0 : State) (die : Nat) :
    ((stepSampler s s0 die).die die).sampler.count = (s.die die).sampler.count + 1 := by simp [stepSampler]

@[simp] theorem stepSampler_scene (s s0 : State) (die : Nat) : (stepSampler s s0 die).scene = s0.scene := by
  simp [stepSampler, State.setRegN]

/-- The sampler's step writes no register but its own. -/
theorem stepSampler_regN (s s0 : State) (die off : Nat) (h : pfBase + 8 < off) (hoff : off < pfBase + 8 + 2 ^ 24) :
    (stepSampler s s0 die).regN die off = s0.regN die off := by
  simp [stepSampler, State.regN, State.setRegN, reg_setReg_ne _ _ (mmioKey_ne die h hoff).symm]

/-! ### The fields of a sample record (R391) -/

/-- The fields of a record whose parts fit them. -/
theorem bits_record (clk pc pos reason part gid last lane ipart : Nat) (hpc : pc < 2 ^ 32) (hpos : pos < 2 ^ 32)
    (hreason : reason < 16) (hpart : part < 16) (hgid : gid < 2 ^ 13) (hlast : last < 2 ^ 13) (hlane : lane < 2)
    (hipart : ipart < 16) :
    let r := 2 ^ 192 * clk + 2 ^ 160 * pc + 2 ^ 128 * pos + 2 ^ 108 * reason + 2 ^ 104 * part + 2 ^ 83 * gid + 2 ^ 67 * last +
      2 ^ 66 * lane + 2 ^ 62 * ipart
    bits r 255 192 = clk % 2 ^ 64 ∧ bits r 191 160 = pc ∧ bits r 159 128 = pos ∧ bits r 127 112 = 0 ∧ bits r 111 108 = reason ∧
    bits r 107 104 = part ∧ bits r 103 96 = 0 ∧ bits r 95 83 = gid ∧ bits r 82 80 = 0 ∧ bits r 79 67 = last ∧
    bitAt r 66 = (lane == 1) ∧ bits r 65 62 = ipart ∧ bits r 61 0 = 0 := by
  intro r
  have hbit : r / 2 ^ 66 % 2 = lane := by omega
  unfold bits bitAt
  rw [hbit]
  refine ⟨?_, ?_, ?_, ?_, ?_, ?_, ?_, ?_, ?_, ?_, rfl, ?_, ?_⟩ <;> omega

/-! ### The barrier watchdog (R392) -/

/-- A timer that runs counts the clk, and ends the queue context once it is over the timeout. -/
theorem execBarrierWatchdogExpiry_runs (s : State) (u n : Nat) (b : Block) (k : Grid) (hb : s.block? u = some b)
    (hfirst : (b.bar n).first.isSome = true) (hrun : s.timerPaused b n = false) (hk : s.grid? b.grid = some k) :
    let t := s.modBlock u fun y => { y with bars := setNth y.bars n { y.bar n with count := (b.bar n).count + 1 } }
    execBarrierWatchdogExpiry u n s =
      if bitAt (s.regN b.die wdBase) 31 = true ∧ clkPerUs * max 1 (s.regN b.die wdBase % 2 ^ 24) < (b.bar n).count + 1 then
        .next ((t.capture k ((t.block? u).getD b) n).terminateGrid k 3 0xFA)
      else .next t := by
  have hnone : (b.bar n).first.isNone = false := by simpa [← Option.not_isSome] using hfirst
  simp only [execBarrierWatchdogExpiry, hb, hnone, hrun, hk, Bool.or_self, Bool.false_eq_true, if_false, Bool.and_eq_true,
    decide_eq_true_eq]

/-! ### Bands (R84, R293, R336) -/

/-- A band is held exactly where an operation of its group holds it. -/
theorem bandHeld_iff (s : State) (b : Band) :
    s.bandHeld b = true ↔ ∃ g, s.group? b.group = some g ∧ ∃ o ∈ g.ops, o.holdsBand b = true := by
  cases h : s.group? b.group <;> simp [State.bandHeld, h]

theorem bandHeld_false {s : State} {b : Band}
    (h : ∀ g, s.group? b.group = some g → ∀ o ∈ g.ops, o.holdsBand b = false) : s.bandHeld b = false := by
  rw [Bool.eq_false_iff, Ne, bandHeld_iff]
  rintro ⟨g, hg, o, ho, hold⟩
  rw [h g hg o ho] at hold
  exact Bool.false_ne_true hold

/-- A band that is there, not yet read, alive and not held is read. -/
theorem execEgressBandRead_reads (s : State) (k : Nat) (b : Band) (hb : s.band? k = some b) (hdata : b.data = none)
    (hlive : b.dead = false) (hheld : s.bandHeld b = false) : execEgressBandRead k s = .next (s.readBand b) := by
  simp [execEgressBandRead, hb, hdata, hlive, hheld]

theorem execEgressBandRead_held (s : State) (k : Nat) (b : Band) (hb : s.band? k = some b) (hheld : s.bandHeld b = true) :
    execEgressBandRead k s = .next s := by
  simp [execEgressBandRead, hb, hheld]

/-- A band whose pages are all translated is read, and the flag of its hand-off falls. -/
theorem readBand_ok (s : State) (b : Band) (bs : List Byte) (hmiss : s.bandMiss b = none)
    (hread : s.readVa (s.bandLook b) b.buffer b.bytes (b.bytes / 64 + 2) = .ok bs) :
    s.readBand b = (((pagesOf b.buffer b.bytes).foldl (fun t p =>
      t.touchTlb b.die .base (coreCol b.core) b.part p) s).endXband b).setBand { b with
      data := some ((List.range (16 * b.width)).map fun i => word (leNat ((bs.drop (4 * i)).take 4))) } := by
  simp only [State.readBand, hmiss, hread]

/-- A band that cannot be read is reported and discarded. -/
theorem readBand_lost (s : State) (b : Band) (va c : Nat) (hmiss : s.bandMiss b = none)
    (hread : s.readVa (s.bandLook b) b.buffer b.bytes (b.bytes / 64 + 2) = .record c va ∨
      ∃ c', s.readVa (s.bandLook b) b.buffer b.bytes (b.bytes / 64 + 2) = .refused c' va) :
    s.readBand b = (s.record b.die b.part 0x24
      { cls := .base, agent := 8, core := b.core, index := b.index, va := va } 0).discard b := by
  rcases hread with hread | ⟨c', hread⟩ <;> simp only [State.readBand, hmiss, hread]

theorem readBand_miss (s : State) (b : Band) (va : Nat) (hmiss : s.bandMiss b = some va) : s.readBand b = s.bandWalk b va := by
  simp only [State.readBand, hmiss]

/-- Two states differ in their walker queues alone. -/
def WalksOnly (s t : State) : Prop :=
  t = { s with die0 := { s.die0 with walks := t.die0.walks }, die1 := { s.die1 with walks := t.die1.walks } }

theorem walksOnly_setDie (s : State) (die : Nat) (l : List Walk) :
    WalksOnly s (s.setDie die { s.die die with walks := l }) := by
  unfold WalksOnly State.setDie State.die
  split <;> rfl

/-- A miss that enters the walker queue changes that queue alone. -/
theorem walksOnly_enqueueWalk (s : State) (die part va : Nat) (a : Asker) :
    WalksOnly s ((s.enqueueWalk die part va a).getD s) := by
  unfold State.enqueueWalk
  dsimp only
  split
  · exact walksOnly_setDie s die _
  · split
    · exact rfl
    · exact walksOnly_setDie s die _

/-- The page that a band misses is one of its buffer's that neither a walk nor the TLB has translated. -/
theorem bandMiss_some (s : State) (b : Band) (va : Nat) (h : s.bandMiss b = some va) :
    b.absent = none ∧ va ∈ pagesOf b.buffer b.bytes ∧ s.bandTlb b va = none := by
  unfold State.bandMiss at h
  split at h
  · cases h
  · next habsent =>
    have hp := List.find?_some h
    simp only [Bool.and_eq_true, Option.isNone_iff_eq_none] at hp
    exact ⟨by simpa using habsent, List.mem_of_find?_eq_some h, hp.2⟩

theorem execSliceTransmit_started (s : State) (k : Nat) (b : Band) (t : DWord) (hb : s.band? k = some b) (hlive : b.dead = false)
    (hstart : b.start = some t) : execSliceTransmit k s = .next (s.sendFragment b) := by
  simp [execSliceTransmit, hb, hlive, hstart]

theorem execSliceTransmit_starts (s : State) (k : Nat) (b : Band) (hb : s.band? k = some b) (hlive : b.dead = false)
    (hstart : b.start = none) (hdata : b.data.isSome = true) (htime : s.stime ≤ b.deadline.toNat)
    (hfirst : s.mustWait b true = false) :
    execSliceTransmit k s =
      .next (s.sendFragment { b with start := some (BitVec.ofNat 64 s.stime), slice := s.sliceOf b }) := by
  have hnone : b.data.isNone = false := by simpa [← Option.not_isSome] using hdata
  simp only [execSliceTransmit, hb, hlive, hstart, hnone, hfirst, Nat.not_lt.2 htime, decide_false, Bool.or_self,
    Bool.false_eq_true, if_false]

theorem execBandDeadlineExpiry_late (s : State) (k : Nat) (b : Band) (hb : s.band? k = some b) (hlive : b.dead = false)
    (hstart : b.start = none) (htime : b.deadline.toNat < s.stime) : execBandDeadlineExpiry k s = .next (s.discard b) := by
  simp [execBandDeadlineExpiry, hb, hlive, hstart, htime]

/-! ### Power and links (R408, R417) -/

/-- An entry that was begun, and is still allowed, is made. -/
theorem execPowerStateEntry_made (s : State) (die t : Nat) (hwake : (s.die die).power.wake = none)
    (ht : s.powerTarget die = t) (hlow : (s.die die).power.st < t) (htoward : (s.die die).power.toward = some t) :
    execPowerStateEntry die s = .next ((s.powerLoss die t).setPower die { st := t }) := by
  simp only [execPowerStateEntry, hwake, ht, htoward, Option.isSome_none, Nat.ne_of_gt hlow, Nat.not_lt.2 (Nat.le_of_lt hlow),
    decide_false, Bool.or_self, Bool.false_eq_true, if_false, if_true]

/-- A stack that must leave its state for a higher one wakes. -/
theorem execPowerStateEntry_leaves (s : State) (die : Nat) (hwake : (s.die die).power.wake = none)
    (ht : s.powerTarget die < (s.die die).power.st) : execPowerStateEntry die s = .next (s.wake die) := by
  simp only [execPowerStateEntry, hwake, ht, Option.isSome_none, Nat.ne_of_lt ht, decide_false, Bool.or_self, Bool.false_eq_true,
    if_false, if_true]

theorem execStackReachesD0_due (s : State) (die t : Nat) (hwake : (s.die die).power.wake = some t) (ht : t ≤ s.clk) :
    execStackReachesD0 die s = .next (s.setPower die {}) := by
  simp [execStackReachesD0, hwake, ht]

/-! ### Accesses from outside (R6, R409) -/

theorem execApplicationCoreAccess_store (s : State) (a n : Nat) (bs : List Byte) (h : bs ≠ []) :
    execApplicationCoreAccess { place := .scene, addr := a, n := n, bytes := bs } s = .next (s.sceneStore a bs) := by
  simp [execApplicationCoreAccess, h]

theorem execApplicationCoreAccess_load (s : State) (a n : Nat) :
    execApplicationCoreAccess { place := .scene, addr := a, n := n, bytes := [] } s =
      .next { s with out := s.out ++ [.load (s.sceneLoad a n)] } := rfl

theorem sceneLoad_held (s : State) (a n : Nat) (h : a + n ≤ Config.sceneBytes) (hp : s.poisoned .scene a n = false) :
    s.sceneLoad a n = some (s.readMem .scene a n) := if_neg (by simp [hp, h])

theorem sceneLoad_poisoned (s : State) (a n : Nat) (hp : s.poisoned .scene a n = true) : s.sceneLoad a n = none :=
  if_pos (by simp [hp])

theorem execPcieDownstreamRequest_msi (s : State) (a n : Nat) (bs : List Byte) (h : bs ≠ []) :
    execPcieDownstreamRequest { place := .imsic, addr := a, n := n, bytes := bs } s = .next (s.msi a (leNat bs)) := by
  simp [execPcieDownstreamRequest, h]

theorem execPcieDownstreamRequest_store (s : State) (a n : Nat) (bs : List Byte) (h : bs ≠ [])
    (hin : s.pcieAllowed a bs.length = true) :
    execPcieDownstreamRequest { place := .scene, addr := a, n := n, bytes := bs } s = .next (s.sceneStore a bs) := by
  simp [execPcieDownstreamRequest, h, hin]

theorem execPcieDownstreamRequest_refused (s : State) (a n : Nat) (bs : List Byte) (h : bs ≠ [])
    (hin : s.pcieAllowed a bs.length = false) :
    execPcieDownstreamRequest { place := .scene, addr := a, n := n, bytes := bs } s = .next (s.countReg 0 (twBase + 0x1C)) := by
  simp [execPcieDownstreamRequest, h, hin, State.countReg]

/-! ### Memory errors and reset (R410 to R414) -/

/-- An uncorrectable word is counted, and marked once. -/
theorem scrub_uncorrectable (s : State) (m : Space) (a : Nat) :
    s.scrub m a .uncorrectable = { s.countReg (s.scrubDie m a) (scBase + 0x14) with
      poison := if (m, a / 8 * 8) ∈ s.poison then s.poison else (m, a / 8 * 8) :: s.poison } := by
  simp [State.scrub]

/-- Three images that all pass their checks. -/
theorem goodImages_iff (images : List BootImage) :
    (decide (images.length = 3) && images.all bootAccepts) = true ↔
      images.length = 3 ∧ ∀ x ∈ images, bootAccepts x = true := by simp

end Sys2Proof.Laws

namespace Sys2Proof.Settled
open Sys2Proof.Machine Sys2Proof.Laws

/-- Settles O60, event by event. -/
theorem outsideEvents : Obligations.OutsideEvents := by
  refine ⟨?stall, ?sample, ?fields, ?noFields, ?watchdog, ?read, ?lost, ?held, ?miss, bandMiss_some, ?slice, ?power, ?links,
    ?port0, ?port1, ?stores, ?loads, ?scrubs, ?reset, fun _ => ⟨rfl, rfl, rfl, rfl⟩, ?governor⟩
  case stall =>
    intro s u g r hg hissued hexited hwhy
    simp [execStallCounterClk, hg, hissued, hexited, hwhy]
  case sample =>
    intro s die t hnext ht hon
    obtain ⟨hfull, hroom⟩ := execProfileSample_due s die t hnext ht hon
    rw [exec_profileSample]
    by_cases hring : sampleRingFull s die
    · refine ⟨_, hfull hring, by simp [State.setRegN], ?_⟩
      rintro x rfl st r rfl hr
      refine ⟨fun hfree => absurd hring hfree, fun _ => ?_⟩
      rw [show sampleReason s (sampleStalled s die) = (r, s) from sampleReason_known s _ r hr,
        stepSampler_regN s s die _ (by decide) (by decide)]
      exact ⟨by simp [State.setRegN], reg_setReg ..⟩
    · refine ⟨_, hroom hring, by simp [recordSample, State.setRegN], ?_⟩
      rintro x rfl st r rfl hr
      refine ⟨fun _ => ?_, fun hfull => absurd hring hfull⟩
      rw [show sampleReason s (sampleStalled s die) = (r, s) from sampleReason_known s _ r hr]
      exact ⟨by simp only [recordSample, State.setRegN, setReg_scene, scene_writeMem, stepSampler_scene]; rfl, reg_setReg ..⟩
  case fields =>
    intro s g reason i hreason hpart hgid hlast hipart hpos
    have hfields := bits_record s.clk g.ctx.pc.toNat i.pos reason (s.partOf g) g.gid i.gid i.lane.toNat i.part
      g.ctx.pc.isLt hpos hreason hpart hgid hlast (Bool.toNat_lt _) hipart
    have hlane : (i.lane.toNat == 1) = i.lane := by cases i.lane <;> rfl
    rw [hlane] at hfields
    exact hfields
  case noFields =>
    intro s reason hreason
    obtain ⟨-, -, -, -, -, -, -, hgid, -, hlast, -⟩ := bits_record s.clk 0 0 reason 0 0x1FFF 0x1FFF 0 0
      (by decide) (by decide) hreason (by decide) (by decide) (by decide) (by decide) (by decide)
    exact ⟨hgid, hlast⟩
  case watchdog =>
    intro s u n b k hb hfirst hrun hk
    rw [exec_barrierWatchdogExpiry, execBarrierWatchdogExpiry_runs s u n b k hb hfirst hrun hk]
    exact ⟨fun h => if_neg fun hc => by simp [h] at hc, fun h hc _ => if_pos ⟨h, hc⟩⟩
  case read =>
    intro s k b bs hb hdata hlive hops hmiss hread
    rw [exec_egressBandRead, execEgressBandRead_reads s k b hb hdata hlive (bandHeld_false hops), readBand_ok s b bs hmiss hread]
  case lost =>
    intro s k b va c hb hdata hlive hops hmiss hread
    rw [exec_egressBandRead, execEgressBandRead_reads s k b hb hdata hlive (bandHeld_false hops),
      readBand_lost s b va c hmiss hread]
  case held =>
    intro s k b g o hb hg ho hold
    rw [exec_egressBandRead, execEgressBandRead_held s k b hb ((bandHeld_iff s b).2 ⟨g, hg, o, ho, hold⟩)]
  case miss =>
    intro s k b va hb hdata hlive hops hmiss
    rw [exec_egressBandRead, execEgressBandRead_reads s k b hb hdata hlive (bandHeld_false hops), readBand_miss s b va hmiss]
    exact ⟨_, rfl, walksOnly_enqueueWalk s b.die b.part va _⟩
  case slice =>
    intro s k b hb hlive
    rw [exec_sliceTransmit, exec_bandDeadlineExpiry]
    exact ⟨fun t => execSliceTransmit_started s k b t hb hlive, execSliceTransmit_starts s k b hb hlive,
      execBandDeadlineExpiry_late s k b hb hlive⟩
  case power =>
    intro s die
    exact ⟨rfl, execStackReachesD0_due s die, execPowerStateEntry_made s die, execPowerStateEntry_leaves s die⟩
  case links =>
    intro s die
    exact ⟨rfl, rfl, fun h => if_neg (Nat.not_le.2 h), fun h => if_pos h⟩
  case port0 =>
    intro s delta
    exact ⟨_, rfl, rfl, rfl, Nat.le_max_left ..⟩
  case port1 =>
    intro s delta
    exact ⟨_, rfl, rfl, rfl, Nat.le_max_left ..⟩
  case stores =>
    intro s a n bs h
    exact ⟨execApplicationCoreAccess_store s a n bs h, execPcieDownstreamRequest_msi s a n bs h,
      execPcieDownstreamRequest_store s a n bs h, execPcieDownstreamRequest_refused s a n bs h⟩
  case loads =>
    intro s a n
    rw [exec_applicationCoreAccess, execApplicationCoreAccess_load]
    exact ⟨fun h hp => by rw [sceneLoad_held s a n h hp], fun hp => by rw [sceneLoad_poisoned s a n hp]⟩
  case scrubs =>
    intro s m a
    refine ⟨rfl, rfl, rfl, rfl, ?_, ?_⟩
    · rw [exec_sramScrub, scrub_uncorrectable]
    · rw [exec_lpddrScrub, scrub_uncorrectable]
      rfl
  case reset =>
    intro s images
    refine ⟨_, rfl, ?_, fun die => ?_, rfl, rfl, rfl, rfl, rfl, rfl, rfl, rfl, rfl⟩
    · rw [← goodImages_iff, Bool.not_eq_false']
    · unfold State.die
      cases decide (images.length = 3) && images.all bootAccepts <;> split <;> rfl
  case governor =>
    intro s
    refine ⟨_, rfl, ?_⟩
    have hpower : s.takeFree.1.toNat % 1024 < 2 ^ 32 := by omega
    show decide _ = true ↔ _ < (s.takeFree.2.setRegN 0 (pmBase + 0xC) (s.takeFree.1.toNat % 1024)).regN 0 (pmBase + 0xC)
    rw [regN_setRegN, Nat.mod_eq_of_lt hpower, decide_eq_true_eq]
    rfl

end Sys2Proof.Settled
end

section
/-! SUPPORT. Fences (R69, R249): the deferred fault that is delivered first (R156, R217), what each fence waits for, and where it
goes on. -/
namespace Sys2Proof.Laws
open Sys2Proof.Machine Sys2Proof.Claims

/-! ### The earliest deferred fault (R156, R217) -/

/-- The earlier in issue order of a fault, if there is one, and the next of a list. -/
def earlier (m : Option Deferred) (d : Deferred) : Option Deferred :=
  match m with
  | some x => if x.op ≤ d.op then m else some d
  | none => some d

theorem due_eq (g : Group) (p : Deferred → Bool) :
    g.due p = if g.deferred.any p then g.deferred.foldl earlier none else none := rfl

/-- From a fault on, the earlier of each pair in turn is the earliest of all. -/
theorem foldl_earlier (l : List Deferred) (m : Deferred) :
    ∃ d, l.foldl earlier (some m) = some d ∧ d ∈ m :: l ∧ ∀ x ∈ m :: l, d.op ≤ x.op := by
  induction l generalizing m with
  | nil => exact ⟨m, rfl, by simp, by simp⟩
  | cons a t ih =>
    by_cases hma : m.op ≤ a.op
    · obtain ⟨d, hd, hmem, hle⟩ := ih m
      have hm := hle m (by simp)
      refine ⟨d, by rw [List.foldl_cons, earlier, if_pos hma, hd], ?_, ?_⟩
      · simp only [List.mem_cons] at hmem ⊢
        exact hmem.imp_right .inr
      · simp only [List.mem_cons, forall_eq_or_imp] at hle ⊢
        exact ⟨hm, Nat.le_trans hm hma, hle.2⟩
    · obtain ⟨d, hd, hmem, hle⟩ := ih a
      have ha := hle a (by simp)
      refine ⟨d, by rw [List.foldl_cons, earlier, if_neg hma, hd], List.mem_cons_of_mem _ hmem, ?_⟩
      rw [List.forall_mem_cons]
      exact ⟨by omega, hle⟩

/-- Where a fault of the kind asked for waits, the earliest of the group is due. -/
theorem due_some {g : Group} {p : Deferred → Bool} (h : g.deferred.any p = true) : ∃ d, Earliest g d ∧ g.due p = some d := by
  rw [due_eq, if_pos h]
  cases hl : g.deferred with
  | nil => simp [hl] at h
  | cons m t =>
    obtain ⟨d, hd, hmem, hle⟩ := foldl_earlier t m
    exact ⟨d, ⟨hl ▸ hmem, hl ▸ hle⟩, hd⟩

/-- An instruction at which every deferred fault is due acts where none waits. -/
theorem delivering_calm {g : Group} (h : NoFault g) (k : Act) : g.delivering (fun _ => true) k = k := by
  simp [Group.delivering, due_none h]

/-- It delivers the earliest where one waits. -/
theorem delivering_fault {g : Group} (h : ¬ NoFault g) (k : Act) :
    ∃ d, Earliest g d ∧ g.delivering (fun _ => true) k = .deliver d := by
  have hany : g.deferred.any (fun _ => true) = true := by simpa using List.exists_mem_of_ne_nil _ h
  obtain ⟨d, hd, hdue⟩ := due_some hany
  exact ⟨d, hd, by rw [Group.delivering, hdue]⟩

/-! ### What the waits are for (R69) -/

/-- The scalar stream stands behind what the lanes do, in words of the statements (R67). -/
theorem pastLanes_eq (g : Group) : g.pastLanes = behindLanes g := by
  by_cases hm : g.mode = .kernel
  · have hjoined : Feed.joined = fun f : Feed =>
        { f with pastS := f.past != 0, seenS := if f.seen = 0 then f.seenS else some 0 } := by
      funext f
      by_cases hf : f.seen = 0 <;> simp [Feed.joined, hf]
    have hopen : Feed.isOpen = Unobserved := rfl
    simp only [Group.pastLanes, Group.mapFeeds, Group.inHandler, behindLanes, hm, hjoined, hopen, bne_self_eq_false,
      Bool.false_eq_true, if_false, if_true]
  · simp [Group.pastLanes, Group.mapFeeds, Group.inHandler, behindLanes, hm]

theorem pathsZeroAll_iff (g : Group) : g.pathsZeroAll = true ↔ (∀ n ∈ g.ctx.paths, n = 0) ∧
    ∀ o ∈ g.ops, o.paths ≠ [] → o.orphan = false ∧ (g.inHandler = true → o.level ≠ 0) := by
  have hhidden : ∀ o : Op, g.hiddenPath o = false ↔ (o.paths ≠ [] → o.orphan = false ∧ (g.inHandler = true → o.level ≠ 0)) := by
    intro o
    by_cases hp : o.paths = [] <;> simp [Group.hiddenPath, hp]
  simp [Group.pathsZeroAll, Ctx.pathsZero, hhidden]

theorem relDone_iff (s : State) (g : Group) : s.relDone g = true ↔
    g.pathsZeroAll = true ∧ (∀ o ∈ g.ops, o.work.isTransfer = false) ∧ ∀ f ∈ s.forwards, f.group ≠ g.uid := by
  simp [State.relDone, and_assoc]

theorem relDone_of_paths {s : State} {g : Group} (h : g.pathsZeroAll = false) : s.relDone g = false := by
  simp [State.relDone, h]

theorem opDone_iff (g : Group) : g.opDone = true ↔ ∀ o ∈ g.ops, o.work.isStore = false := by simp [Group.opDone]

theorem opDone_false {g : Group} (h : ∃ o ∈ g.ops, o.work.isStore = true) : g.opDone = false := by
  simpa [Group.opDone] using h

theorem matrixDone_iff (g : Group) : g.matrixDone = true ↔ ∀ o ∈ g.ops, o.work.isMatrix = false := by simp [Group.matrixDone]

theorem matrixDone_false {g : Group} (h : ∃ o ∈ g.ops, o.work.isMatrix = true) : g.matrixDone = false := by
  simpa [Group.matrixDone] using h

/-! ### Waits as a fence -/

theorem asAcq_lane {g : Group} (h : g.ctx.laneIdle = false) (k : Act) : g.asAcq k = .wait 9 g := by simp [Group.asAcq, h]

theorem asAcq_busy {g : Group} (h : g.ctx.laneIdle = true) (hp : g.pathsZeroAll = false) (k : Act) :
    g.asAcq k = .wait 8 g := by simp [Group.asAcq, h, hp]

theorem asAcq_done {g : Group} (h : g.ctx.laneIdle = true) (hp : g.pathsZeroAll = true) (k : Act) : g.asAcq k = k := by
  simp [Group.asAcq, h, hp]

/-- A wait as `fence.rel` that is over delivers what waits, or acts. -/
theorem asRel_delivering {s : State} {g : Group} (h : g.ctx.laneIdle = true) (hr : s.relDone g = true) (k : Act) :
    s.asRel g (s, k) = (s, g.delivering (fun _ => true) k) := by
  cases hd : g.due (fun _ => true) <;> simp [State.asRel, Group.delivering, h, hr, hd]

/-- A wait as `mwait` that is over delivers what waits, or acts. -/
theorem asMwait_delivering {s : State} {g : Group} (h : g.matrixDone = true) (k : Act) :
    s.asMwait g (s, k) = (s, g.delivering (fun _ => true) k) := by
  cases hd : g.due (fun _ => true) <;> simp [State.asMwait, Group.delivering, h, hd]

/-! ### The fences at their turn -/

@[simp] theorem exec_fenceAcq (s : State) : exec .fenceAcq s = execFenceAcq s := rfl
@[simp] theorem exec_fenceRel (s : State) : exec .fenceRel s = execFenceRel s := rfl
@[simp] theorem exec_opfence (s : State) : exec .opfence s = execOpfence s := rfl
@[simp] theorem exec_mwait (s : State) : exec .mwait s = execMwait s := rfl

/-- `fence.ar` waits and goes on as `fence.rel` does. -/
@[simp] theorem exec_fenceAr (s : State) : exec .fenceAr s = execFenceRel s := rfl

/-- A fence that waits no longer: it goes on with the group `g'` where no deferred fault waits, and delivers the earliest where one
does (R69, R156). -/
def GoesOnOrDelivers (s : State) (g g' : Group) (i : Instr) : Prop :=
  (NoFault g → exec i s = .next (goesOn s g g')) ∧
  (¬ NoFault g → ∃ d, Earliest g d ∧ exec i s = .next (delivers s g d))

/-- An instruction that ends by delivering what waits, or going on. -/
theorem goesOnOrDelivers_of_delivering {s : State} {c : Cur} {g g' : Group} {i : Instr}
    (h : exec i s = .next (s.finish c g (g.delivering (fun _ => true) (.adv g')))) : GoesOnOrDelivers s g g' i := by
  refine ⟨fun hn => ?_, fun hn => ?_⟩
  · rw [h, delivering_calm hn]
    rfl
  · obtain ⟨d, hd, hdel⟩ := delivering_fault hn (.adv g')
    exact ⟨d, hd, by rw [h, hdel, finish_deliver]⟩

section
variable {s : State} {c : Cur} {g : Group} (h : Scalar s c g [])
include h

theorem fenceAcq_lane (hl : g.ctx.laneIdle = false) : exec .fenceAcq s = .next (waits s g 9) := by
  rw [exec_fenceAcq, execFenceAcq, issueScalar_next h, asAcq_lane hl, finish_wait]

theorem fenceAcq_busy (hl : g.ctx.laneIdle = true) (hp : g.pathsZeroAll = false) :
    exec .fenceAcq s = .next (waits s g 8) := by
  rw [exec_fenceAcq, execFenceAcq, issueScalar_next h, asAcq_busy hl hp, finish_wait]

theorem fenceAcq_done (hl : g.ctx.laneIdle = true) (hp : g.pathsZeroAll = true) :
    GoesOnOrDelivers s g (behindLanes g) .fenceAcq :=
  goesOnOrDelivers_of_delivering
    (by rw [exec_fenceAcq, execFenceAcq, issueScalar_next h, asAcq_done hl hp, pastLanes_eq])

theorem fenceRel_lane (hl : g.ctx.laneIdle = false) : exec .fenceRel s = .next (waits s g 9) := by
  rw [exec_fenceRel, execFenceRel, issueScalarS_next h, asRel_lane hl, finish_wait]

theorem fenceRel_busy (hl : g.ctx.laneIdle = true) (hr : s.relDone g = false) : exec .fenceRel s = .next (waits s g 8) := by
  rw [exec_fenceRel, execFenceRel, issueScalarS_next h, asRel_busy hl hr, finish_wait]

theorem fenceRel_done (hl : g.ctx.laneIdle = true) (hr : s.relDone g = true) :
    GoesOnOrDelivers s g (behindLanes g) .fenceRel :=
  goesOnOrDelivers_of_delivering
    (by rw [exec_fenceRel, execFenceRel, issueScalarS_next h, asRel_delivering hl hr, pastLanes_eq])

theorem opfence_lane (hl : g.ctx.laneIdle = false) : exec .opfence s = .next (waits s g 9) := by
  simp [execOpfence, issueScalar_next h, hl]

theorem opfence_busy (hl : g.ctx.laneIdle = true) (ho : g.opDone = false) : exec .opfence s = .next (waits s g 8) := by
  simp [execOpfence, issueScalar_next h, hl, ho]

theorem opfence_done (hl : g.ctx.laneIdle = true) (ho : g.opDone = true) :
    GoesOnOrDelivers s g (behindLanes g) .opfence :=
  goesOnOrDelivers_of_delivering (c := c) (by simp [execOpfence, issueScalar_next h, hl, ho, pastLanes_eq])

theorem mwait_busy (hm : g.matrixDone = false) : exec .mwait s = .next (waits s g 10) := by
  rw [exec_mwait, execMwait, issueScalarS_next h, asMwait_busy hm, finish_wait]

theorem mwait_done (hm : g.matrixDone = true) : GoesOnOrDelivers s g g .mwait :=
  goesOnOrDelivers_of_delivering (by rw [exec_mwait, execMwait, issueScalarS_next h, asMwait_delivering hm])

end

end Sys2Proof.Laws

namespace Sys2Proof.Settled
open Sys2Proof.Machine Sys2Proof.Claims Sys2Proof.Laws

/-- Settles O28, fence by fence: `fence.ar` is `fence.rel`, and each that waits no longer is a `GoesOnOrDelivers`. -/
theorem fences : Obligations.Fences := by
  intro s c g h
  refine ⟨?done, ?lanes, ?paths, ?rel, ?ops, ?mat, pathsZeroAll_iff g, relDone_iff s g⟩
  case done =>
    simp only [List.forall_mem_cons, reduceCtorEq, if_false, if_true]
    refine ⟨?_, ?_, ?_, ?_, ?_, List.forall_mem_nil _⟩
    · exact fun ⟨hl, hp⟩ => fenceAcq_done h hl hp
    · exact fun ⟨hl, hr⟩ => fenceRel_done h hl hr
    · exact fun ⟨hl, hr⟩ => fenceRel_done h hl hr
    · exact fun ⟨hl, ho⟩ => opfence_done h hl ((opDone_iff g).2 ho)
    · exact fun hm => mwait_done h ((matrixDone_iff g).2 hm)
  case lanes =>
    intro hl
    simp only [List.forall_mem_cons]
    exact ⟨fenceAcq_lane h hl, fenceRel_lane h hl, fenceRel_lane h hl, opfence_lane h hl, List.forall_mem_nil _⟩
  case paths =>
    intro hl hp
    have hrel := fenceRel_busy h hl (relDone_of_paths hp)
    simp only [List.forall_mem_cons]
    exact ⟨fenceAcq_busy h hl hp, hrel, hrel, List.forall_mem_nil _⟩
  case rel =>
    intro hl hr
    simp only [List.forall_mem_cons]
    exact ⟨fenceRel_busy h hl hr, fenceRel_busy h hl hr, List.forall_mem_nil _⟩
  case ops =>
    exact fun hl hops => opfence_busy h hl (opDone_false hops)
  case mat =>
    exact fun hmat => mwait_busy h (matrixDone_false hmat)

end Sys2Proof.Settled
end

section
/-! SUPPORT. The packet core (R86, R355, R357 to R359, R378): a sort by rank keeps its elements, which packets a step takes, and what
becomes of a packet at its turn. -/
namespace Sys2Proof.Laws
open Sys2Proof.Machine Sys2Proof.Claims

/-! ### Sorting by rank -/

theorem insertRank_perm {α : Type} (x : List Nat × α) (l : List (List Nat × α)) : (insertRank x l).Perm (x :: l) := by
  induction l with
  | nil => exact .refl _
  | cons y t ih =>
    unfold insertRank
    split
    · exact .refl _
    · exact (ih.cons y).trans (.swap x y t)

/-- A list sorted by rank has the elements that it had. -/
theorem sortRank_perm {α : Type} (f : α → List Nat) (l : List α) : (sortRank f l).Perm l := by
  induction l with
  | nil => exact .refl _
  | cons a t ih => exact ((insertRank_perm _ _).map _).trans (ih.cons a)

theorem mem_sortRank {α : Type} {f : α → List Nat} {l : List α} {a : α} : a ∈ sortRank f l ↔ a ∈ l :=
  (sortRank_perm f l).mem_iff

/-! ### Events -/

@[simp] theorem exec_packetCoreStep (die : Nat) (s : State) : exec (.packetCoreStep die) s = execPacketCoreStep die s := rfl
@[simp] theorem exec_dispatchPacket (die q : Nat) (s : State) : exec (.dispatchPacket die q) s = execDispatchPacket die q s := rfl
@[simp] theorem exec_signalPacket (die q : Nat) (s : State) : exec (.signalPacket die q) s = execSignalPacket die q s := rfl
@[simp] theorem exec_waitPacket (die q : Nat) (s : State) : exec (.waitPacket die q) s = execWaitPacket die q s := rfl
@[simp] theorem exec_nopPacket (die q : Nat) (s : State) : exec (.nopPacket die q) s = execNopPacket die q s := rfl
@[simp] theorem exec_coalesceTimerExpiry (die q : Nat) (s : State) :
    exec (.coalesceTimerExpiry die q) s = execCoalesceTimerExpiry die q s := rfl

@[simp] theorem mapPackets_agenda (s : State) (die : Nat) (f : List Packet → List Packet) :
    (s.mapPackets die f).agenda = s.agenda := by simp [State.mapPackets]

/-! ### A step of the packet core (R357, R417) -/

/-- The events of the packets in progress on a stack, in the order in which a step handles them. -/
def packetTurns (s : State) (die : Nat) : List Turn :=
  (sortRank (fun p => [(packetEvent die p).1, p.queue]) (s.die die).packets).map fun p => .event (packetEvent die p).2

/-- In D0 the queues take their packets, and those in progress are handled next. -/
theorem execPacketCoreStep_d0 (s : State) (die : Nat) (h : (s.die die).power.st = 0) :
    let t := s.mapPackets die fun l => l ++ s.newPackets die
    execPacketCoreStep die s = .next { t with agenda := packetTurns t die ++ s.agenda } := by
  simp only [execPacketCoreStep, packetTurns, h, bne_self_eq_false, Bool.false_eq_true, if_false, mapPackets_agenda]

theorem execPacketCoreStep_low (s : State) (die : Nat) (h : (s.die die).power.st ≠ 0) : execPacketCoreStep die s = .next s := by
  simp [execPacketCoreStep, h]

/-- Every packet in progress has its turn. -/
theorem mem_packetTurns (s : State) (die : Nat) (p : Packet) (h : p ∈ (s.die die).packets) :
    .event (packetEvent die p).2 ∈ packetTurns s die := List.mem_map.2 ⟨p, mem_sortRank.2 h, rfl⟩

/-- No queue takes two packets in a step. -/
theorem newPackets_nodup (s : State) (die : Nat) : ((s.newPackets die).map (·.queue)).Nodup := by
  have hqueue : (s.newPackets die).map (·.queue) = ((List.range 32).filter fun q =>
      s.regN die (pkQ q 0x14) % 4 == 1 && s.regN die (pkQ q 0xC) != s.regN die (pkQ q 0x10) && (s.packet? die q).isNone) := by
    simp [State.newPackets, Function.comp_def]
  rw [hqueue]
  exact List.nodup_range.filter _

/-- A queue that takes a packet is open, has one published and none in progress. -/
theorem newPackets_queue {s : State} {die : Nat} {p : Packet} (h : p ∈ s.newPackets die) :
    p.queue < 32 ∧ s.queueState die p.queue = 1 ∧ s.regN die (pkQ p.queue 0xC) ≠ s.regN die (pkQ p.queue 0x10) ∧
      s.packet? die p.queue = none ∧ p.bytes = s.packetBytes die p.queue := by
  obtain ⟨q, hq, rfl⟩ := List.mem_map.1 h
  simp only [List.mem_filter, List.mem_range, Bool.and_eq_true, beq_iff_eq, bne_iff_ne, Option.isNone_iff_eq_none] at hq
  obtain ⟨hlt, ⟨hopen, hindex⟩, hnone⟩ := hq
  exact ⟨hlt, hopen, hindex, hnone, rfl⟩

/-! ### A packet at its turn (R86, R355, R357 to R359) -/

theorem packetTurn_ready {s : State} {die q : Nat} {p : Packet} (h : PacketReady s die q p) (k : Packet → State) :
    s.packetTurn die q k = k p := by
  have horder : (packetAcquire p.bytes && !s.queueQuiet die q) = false := by
    cases ha : packetAcquire p.bytes
    · rfl
    · simp [h.order ha]
  simp [State.packetTurn, h.packet, h.page, horder]

/-- A packet that waits for a page, or for the earlier grids of its queue, does nothing. -/
theorem packetTurn_held {s : State} {die q : Nat} {p : Packet} (hp : s.packet? die q = some p)
    (h : p.wait.isSome = true ∨ (packetAcquire p.bytes = true ∧ s.queueQuiet die q = false)) (k : Packet → State) :
    s.packetTurn die q k = s := by
  have hheld : (p.wait.isSome || (packetAcquire p.bytes && !s.queueQuiet die q)) = true := by simpa using h
  simp [State.packetTurn, hp, hheld]

section
variable {s : State} {die q : Nat} {p : Packet} (h : PacketReady s die q p)
include h

/-- The checks of a short packet come before what it does. -/
theorem shortPacket_reserved {ty : Nat} (hty : leNat (p.bytes.take 1) = ty) (hr : shortReserved p.bytes = true)
    (act : Nat → Option State) : s.shortPacket die q ty act = s.packetReport die p 1 1 := by
  simp [State.shortPacket, packetTurn_ready h, hty, hr]

theorem shortPacket_misaligned {ty : Nat} (hty : leNat (p.bytes.take 1) = ty) (hr : shortReserved p.bytes = false)
    (ha : packetCompletion p.bytes % 8 ≠ 0) (act : Nat → Option State) :
    s.shortPacket die q ty act = s.packetReport die p 1 10 := by
  simp [State.shortPacket, packetTurn_ready h, hty, hr, ha]

theorem shortPacket_stays {ty : Nat} (hty : leNat (p.bytes.take 1) = ty) (hok : shortOk p) {act : Nat → Option State}
    (hact : act (bits (leNat p.bytes) 37 32) = none) : s.shortPacket die q ty act = s := by
  simp [State.shortPacket, packetTurn_ready h, hty, hok.1, hok.2, hact]

theorem shortPacket_acts {ty : Nat} (hty : leNat (p.bytes.take 1) = ty) (hok : shortOk p) {act : Nat → Option State} {t : State}
    (hact : act (bits (leNat p.bytes) 37 32) = some t) : s.shortPacket die q ty act = t.packetReport die p 0 0 := by
  simp [State.shortPacket, packetTurn_ready h, hty, hok.1, hok.2, hact]

/-- A dispatch with room for its grid does what its checks say. -/
theorem execDispatchPacket_ok (hty : leNat (p.bytes.take 1) = 1) (hn : s.dispatched die q < 16) {k : Grid}
    (hk : s.checkDispatch { die := die, part := s.queuePart die q, queue := q } p.bytes = .ok k) :
    execDispatchPacket die q s = .next ((s.enter k).packetDone die p) := by
  simp [execDispatchPacket, packetTurn_ready h, hty, Nat.not_le.2 hn, hk]

theorem execDispatchPacket_reject (hty : leNat (p.bytes.take 1) = 1) (hn : s.dispatched die q < 16) {r : Nat}
    (hr : s.checkDispatch { die := die, part := s.queuePart die q, queue := q } p.bytes = .reject r) :
    execDispatchPacket die q s = .next (s.packetReport die p 1 r) := by
  simp [execDispatchPacket, packetTurn_ready h, hty, Nat.not_le.2 hn, hr]

theorem execDispatchPacket_page (hty : leNat (p.bytes.take 1) = 1) (hn : s.dispatched die q < 16) {c v : Nat}
    (hv : s.checkDispatch { die := die, part := s.queuePart die q, queue := q } p.bytes = .page c v) :
    execDispatchPacket die q s =
      .next ((s.translationRecord die (s.queuePart die q) c (dispatcherAsker 0 q 0 v) 0 false).mapPackets die fun l =>
        l.map fun x => if x.queue == q then { x with wait := some (v / 4096) } else x) := by
  simp [execDispatchPacket, packetTurn_ready h, hty, Nat.not_le.2 hn, hv]

theorem execDispatchPacket_full (hn : 16 ≤ s.dispatched die q) : execDispatchPacket die q s = .next s := by
  rw [execDispatchPacket, packetTurn_ready h, if_pos (by simp [hn])]

end

/-- A packet of a reserved type is rejected. -/
theorem execNopPacket_reserved {s : State} {die q : Nat} {p : Packet} (hp : s.packet? die q = some p)
    (h : 3 < leNat (p.bytes.take 1)) : execNopPacket die q s = .next (s.packetReport die p 1 1) := by
  simp [execNopPacket, hp, h]

theorem execNopPacket_short {s : State} {die q : Nat} {p : Packet} (hp : s.packet? die q = some p)
    (h : leNat (p.bytes.take 1) ≤ 3) : execNopPacket die q s = .next (s.shortPacket die q 0 fun _ => some s) := by
  simp [execNopPacket, hp, Nat.not_lt.2 h]

/-! ### The coalescing timer (R378) -/

theorem execCoalesceTimerExpiry_early (s : State) (die q t : Nat) (ht : (s.coalesceOf die q).timer = some t) (h : s.clk < t) :
    execCoalesceTimerExpiry die q s = .next s := by simp [execCoalesceTimerExpiry, ht, h]

theorem execCoalesceTimerExpiry_pending (s : State) (die q t : Nat) (ht : (s.coalesceOf die q).timer = some t) (h : t ≤ s.clk)
    (hn : 0 < (s.coalesceOf die q).pending) :
    execCoalesceTimerExpiry die q s = .next ((s.queueMsi die q).setCoalesce die q {}) := by
  simp [execCoalesceTimerExpiry, ht, Nat.not_lt.2 h, hn]

theorem execCoalesceTimerExpiry_idle (s : State) (die q t : Nat) (ht : (s.coalesceOf die q).timer = some t) (h : t ≤ s.clk)
    (hn : (s.coalesceOf die q).pending = 0) : execCoalesceTimerExpiry die q s = .next (s.setCoalesce die q {}) := by
  simp [execCoalesceTimerExpiry, ht, Nat.not_lt.2 h, hn]

end Sys2Proof.Laws

namespace Sys2Proof.Settled
open Sys2Proof.Machine Sys2Proof.Claims Sys2Proof.Laws

/-- Settles O57: the step of the packet core, then each type of packet by `packetTurn_ready` or `packetTurn_held`. -/
theorem packetEvents : Obligations.PacketEvents := by
  refine ⟨?step, execPacketCoreStep_low, fun s die => ⟨newPackets_nodup s die, fun p hp => newPackets_queue hp⟩, ?dispatch,
    fun s die q p h => execDispatchPacket_full h, ?checks, ?signal, ?wait, ?nop, ?held, ?timer⟩
  case step =>
    intro s die hd0
    rw [exec_packetCoreStep, execPacketCoreStep_d0 s die hd0]
    exact ⟨_, _, rfl, rfl, rfl, mem_packetTurns _ die⟩
  case dispatch =>
    intro s die q p h hty hroom asked
    exact ⟨fun _ => execDispatchPacket_ok h hty hroom, fun _ => execDispatchPacket_reject h hty hroom,
      fun _ _ => execDispatchPacket_page h hty hroom⟩
  case checks =>
    intro s die q p h
    simp only [List.forall_mem_cons]
    refine ⟨fun hty => ?_, fun hty => ?_, fun hty => ?_, List.forall_mem_nil _⟩
    · rw [exec_signalPacket, execSignalPacket]
      exact ⟨fun hr => by rw [shortPacket_reserved h hty hr], fun hr ha => by rw [shortPacket_misaligned h hty hr ha]⟩
    · rw [exec_waitPacket, execWaitPacket]
      exact ⟨fun hr => by rw [shortPacket_reserved h hty hr], fun hr ha => by rw [shortPacket_misaligned h hty hr ha]⟩
    · rw [exec_nopPacket, execNopPacket_short h.packet (by omega)]
      exact ⟨fun hr => by rw [shortPacket_reserved h hty hr], fun hr ha => by rw [shortPacket_misaligned h hty hr ha]⟩
  case signal =>
    intro s die q p h hty hok
    rw [exec_signalPacket, execSignalPacket, shortPacket_acts h hty hok rfl]
  case wait =>
    intro s die q p h hty hok
    rw [exec_waitPacket, execWaitPacket]
    exact ⟨fun hsem => by rw [shortPacket_stays h hty hok (if_pos hsem)],
      fun hsem => by rw [shortPacket_acts h hty hok (if_neg hsem)]⟩
  case nop =>
    intro s die q p h
    refine ⟨execNopPacket_reserved h.packet, fun hty hok => ?_⟩
    rw [exec_nopPacket, execNopPacket_short h.packet (by omega), shortPacket_acts h hty hok rfl]
  case held =>
    intro s die q p hp hheld hty
    have hturn := packetTurn_held hp hheld
    simp only [List.forall_mem_cons]
    refine ⟨?_, ?_, ?_, ?_, List.forall_mem_nil _⟩
    · rw [exec_dispatchPacket, execDispatchPacket, hturn]
    · rw [exec_signalPacket, execSignalPacket, State.shortPacket, hturn]
    · rw [exec_waitPacket, execWaitPacket, State.shortPacket, hturn]
    · rw [exec_nopPacket, execNopPacket_short hp hty, State.shortPacket, hturn]
  case timer =>
    intro s die q t ht
    exact ⟨execCoalesceTimerExpiry_early s die q t ht, execCoalesceTimerExpiry_pending s die q t ht,
      execCoalesceTimerExpiry_idle s die q t ht⟩

end Sys2Proof.Settled
end
